-- ==== Sys2Proof/Word.lean ====
section
/-! DEFINITION. The words of the block: bytes, sector numbers, drive indices, instants. -/

namespace Sys2Proof

/-- A byte, 0..255, bit 0 the least significant (00_scope.md R11). -/
abbrev Byte := BitVec 8

/-- A 16-bit sector number as a command frame carries it (30_encoding.md R97). -/
abbrev Sector := BitVec 16

/-- A drive index 0..7 (30_encoding.md R96). -/
abbrev Drive := Fin 8

/-- An instant of the monotonic clock, in nanoseconds (00_scope.md R13). -/
abbrev Time := Nat

end Sys2Proof
end

