-- ==== Sys2Proof/Machine/Checksum.lean ====
section
/-! DEFINITION. The Checksum Unit (40_checksum.md): the block's only arithmetic. -/

namespace Sys2Proof.Machine

/-- One addition and one fold of the carry (40_checksum.md R120, R121), on exact naturals. -/
def foldCarry (sum : Nat) (b : Byte) : Nat :=
  ((sum + b.toNat) >>> 8) + ((sum + b.toNat) &&& 0xFF)

/-- The loop of R120 over the bytes after the first. -/
def checksumFrom : Nat → List Byte → Nat
  | sum, [] => sum
  | sum, b :: bs => checksumFrom (foldCarry sum b) bs

/-- R120 on a list given as its first byte and the rest; the result fits a byte (R121). -/
def checksumCons (b : Byte) (bs : List Byte) : Byte :=
  BitVec.ofNat 8 (checksumFrom b.toNat bs)

/-- `checksum(l)` of R120; `none` on the empty list, where it is not defined (R123). -/
def checksum : List Byte → Option Byte
  | [] => none
  | b :: bs => some (checksumCons b bs)

/-- The checksum of the first four bytes of a frame (R125). -/
def frameChecksum (deviceId command aux1 aux2 : Byte) : Byte :=
  checksumCons deviceId [command, aux1, aux2]

/-- A data block `data ++ [checksum(data)]` (30_encoding.md R95); `none` for no data (R123). -/
def dataBlockBytes (data : List Byte) : Option (List Byte) :=
  (checksum data).map fun c => data ++ [c]

end Sys2Proof.Machine
end

