-- ==== Sys2Proof/Config.lean ====
section
/-! DEFINITION. The parameters of 00_scope.md R9: the fixed numbers of the protocol, the configuration record, and
the free values (opaque, without a body: no proof can see them) for what the spec leaves OPEN or to a drive handle. -/

namespace Sys2Proof

namespace Proto

/-- `FRAME_LEN` of R9: a command frame has exactly 5 bytes. -/
def frameLen : Nat := 5

/-- `DEV_LO` of R9: the lowest honoured device id. -/
def devLo : Byte := 0x31

/-- `DEV_HI` of R9: the highest honoured device id. -/
def devHi : Byte := 0x38

/-- `BAUD` of R9, in bit/s: a property of the transport (R6), no rule reads it. -/
def baud : Nat := 19200

/-- The response codes of 30_encoding.md R94. -/
def ack : Byte := 0x41
def complete : Byte := 0x43
def nak : Byte := 0x4E
def err : Byte := 0x45

/-- The command bytes of 30_encoding.md R99. -/
def cmdIdle : Byte := 0x00
def cmdFormat : Byte := 0x21
def cmdFormatMd : Byte := 0x22
def cmdPoll : Byte := 0x3F
def cmdWrite : Byte := 0x50
def cmdRead : Byte := 0x52
def cmdStatus : Byte := 0x53
def cmdWriteVerify : Byte := 0x57

/-- The byte `format` fills sectors and its response with (42_drive_registry.md R157, R158). -/
def fill : Byte := 0xFF

/-- One microsecond in nanoseconds (00_scope.md R13). -/
def nsPerMicro : Nat := 1000

end Proto

/-- The configuration record (00_scope.md R9, 10_state.md R36). Delays in µs, gaps in ns. It is constant for the
session: no rule writes it. -/
structure Config where
  tAck : Nat
  tComplete : Nat
  tData : Nat
  tFrameGap : Nat
  tAbort : Nat
  readAckDrain : Bool
  readDataDrain : Bool
  writeDoneDrain : Bool
  rxChunkMax : Nat
  sectorSizeMax : Nat
  defaultSectorSize : Nat
  defaultSectorCount : Nat
  deriving DecidableEq, Repr

namespace Config

/-- Free values behind the OPEN parameters of R9 (log entry 7, DESIGN CHOICE, safe). -/
opaque openSectorSizeMax : Nat
opaque openDefaultSectorSize : Nat
opaque openDefaultSectorCount : Nat
opaque openClock : Nat

/-- `F_CLK` of R9, in Hz: OPEN, at least 1 MHz; no rule reads it. -/
def fClk : Nat := 1000000 + openClock

/-- The configuration at reset: the values of R9, its OPEN parameters free. The forms `n + 1` and `m % max + 1` say
only what the spec says of them: sizes are 1..SECTOR_SIZE_MAX, a count is at least 1 (R66, 92_eei_decisions.md D24). -/
def initial : Config where
  tAck := 1000
  tComplete := 200
  tData := 400
  tFrameGap := 10000000
  tAbort := 1000000000
  readAckDrain := true
  readDataDrain := false
  writeDoneDrain := false
  rxChunkMax := 1
  sectorSizeMax := openSectorSizeMax + 1
  defaultSectorSize := openDefaultSectorSize % (openSectorSizeMax + 1) + 1
  defaultSectorCount := openDefaultSectorCount + 1

/-- What R9 asks of a configuration: a receive event carries at least one byte, sizes run from 1 to
SECTOR_SIZE_MAX, a default image has at least one sector. -/
def ok (c : Config) : Bool :=
  decide (1 ≤ c.rxChunkMax) && decide (1 ≤ c.defaultSectorSize) &&
  decide (c.defaultSectorSize ≤ c.sectorSizeMax) && decide (1 ≤ c.defaultSectorCount)

/-! `newDefaultImage` and its two parameters "stay named parameters" (42_drive_registry.md R158): what the n-th fresh
default image is beyond its geometry is free (93_implementation_defined.md U12, U14, U15; log entry 13, DESIGN CHOICE, safe). -/

/-- `some id`: the default image is a handle of this identity that is no reference image; `none`: it is one. -/
opaque freshKind : Nat → Option Nat
opaque freshStatus : Nat → Vector Byte 4
opaque freshBootSize : Nat → Nat
opaque freshBootCount : Nat → Nat
opaque freshReadOnly : Nat → Bool

end Config

/-- The drive-image contract calls of 20_memory.md R61 that the block makes, as an external handle has received them,
with whether a mutating one was accepted. -/
inductive HandleCall where
  | getStatusBytes
  | getSectorSize (n : Option Nat)
  | getSectorCount
  | getSector (n : Nat)
  | putSector (n : Nat) (bytes : List Byte) (short : Bool) (accepted : Bool)
  | format (size count : Nat) (accepted : Bool)
  deriving DecidableEq, Repr

namespace Config

/-! What a handle other than the reference image answers is any value (93_implementation_defined.md U12, U13, U14,
U25): opaque functions of the handle's identity and of the calls it has received, newest first (log entry 11, DEDUCED, safe). -/

opaque handleStatus : Nat → List HandleCall → Vector Byte 4
opaque handleSize : Nat → List HandleCall → Option Nat → Nat
opaque handleCount : Nat → List HandleCall → Nat
/-- `none`: the handle refuses the sector number; else the sector, at least one byte (40_checksum.md R123). -/
opaque handleSector : Nat → List HandleCall → Nat → Option (Byte × List Byte)
/-- What the rest of a sector holds after a write shorter than the sector (93_implementation_defined.md U7). -/
opaque handleRest : Nat → List HandleCall → Nat → List Byte
/-- `some code`: the handle refuses the write; `none`: it accepts. -/
opaque handlePut : Nat → List HandleCall → Nat → List Byte → Option Nat
/-- `some code`: the handle refuses to format; `none`: it accepts. -/
opaque handleFormat : Nat → List HandleCall → Nat → Nat → Option Nat
/-- The code with which a handle refuses to read a sector. -/
opaque handleReadError : Nat → List HandleCall → Nat → Nat

end Config

end Sys2Proof
end

