-- ==== Sys2Proof/Machine/Operands.lean ====
section
/-! DEFINITION. Operand assembly (30_encoding.md R96, R97, R98): device id to drive index, aux bytes to sector. -/

namespace Sys2Proof.Machine

/-- The range test of R98: 0x31..0x38. -/
def honoured (deviceId : Byte) : Bool :=
  decide (Proto.devLo ≤ deviceId) && decide (deviceId ≤ Proto.devHi)

/-- `(deviceId & 0xF) − 1` of R96, reduced into 0..7, which changes nothing for an honoured id. -/
def driveOf (deviceId : Byte) : Drive :=
  Fin.ofNat 8 ((deviceId &&& 0x0F).toNat - 1)

/-- The device id of a drive: `0x30 + k` for drive index `k − 1` (R106). -/
def deviceIdOf (d : Drive) : Byte :=
  Proto.devLo + BitVec.ofNat 8 d.val

/-- `aux2 << 8 | aux1` (R97): the low byte comes first on the wire (20_memory.md R63). -/
def sectorOf (aux1 aux2 : Byte) : Sector :=
  (aux2.setWidth 16 <<< 8) ||| aux1.setWidth 16

/-- The low byte of a sector number, sent as aux1 (R106). -/
def aux1Of (n : Sector) : Byte := n.extractLsb' 0 8

/-- The high byte of a sector number, sent as aux2 (R106). -/
def aux2Of (n : Sector) : Byte := n.extractLsb' 8 8

end Sys2Proof.Machine
end

