-- ==== Sys2Proof/Syntax.lean ====
section
/-! DEFINITION. The instructions: one constructor per row of spec/opcode_table.json. -/

namespace Sys2Proof

/-- The rows of spec/opcode_table.json. The eleven of format F1 are the command frames the wire host sends
(30_encoding.md R91, R99, R100), `payload` is format F2, the handshake bytes are F3 and `dataBlock` is F4: the last
five are what the Response Transmitter, "a small sequential interpreter" of a list of segments
(45_response_transmitter.md), executes. An honoured device id is held as its drive index (R96), a pair aux1, aux2
that means a sector as that sector (R97); the checksum of a validated frame is determined by its other bytes. -/
inductive Instr where
  /-- Command byte 0x00, 43_dispatch.md R172. -/
  | idle (d : Drive) (aux1 aux2 : Byte)
  /-- Command byte 0x21, R180. -/
  | format (d : Drive) (aux1 aux2 : Byte)
  /-- Command byte 0x22, R181. -/
  | formatMd (d : Drive) (aux1 aux2 : Byte)
  /-- Command byte 0x3F, R182. -/
  | poll (d : Drive) (aux1 aux2 : Byte)
  /-- Command byte 0x50, R177. -/
  | write (d : Drive) (n : Sector)
  /-- Command byte 0x52, R176. -/
  | read (d : Drive) (n : Sector)
  /-- Command byte 0x53, R175. -/
  | status (d : Drive) (aux1 aux2 : Byte)
  /-- Command byte 0x57, R178. -/
  | writeVerify (d : Drive) (n : Sector)
  /-- Any of the other 248 command bytes, R183. -/
  | unsupported (d : Drive) (command aux1 aux2 : Byte)
  /-- A valid checksum and a device id outside 0x31..0x38, R171. -/
  | notmine (deviceId command aux1 aux2 : Byte)
  /-- Five bytes whose fifth is not the checksum of the first four, 41_frame_decoder.md R136. -/
  | badsum (deviceId command aux1 aux2 checksum : Byte)
  /-- One chunk of payload bytes, 44_sector_write_receiver.md R201. -/
  | payload (data : List Byte)
  /-- Handshake byte 0x41, 30_encoding.md R94. -/
  | ack
  /-- Handshake byte 0x43, R94. -/
  | complete
  /-- Response code 0x4E, R94, R104. -/
  | nak
  /-- Response code 0x45, R94, R104. -/
  | err
  /-- Data bytes followed by their checksum, R95. -/
  | dataBlock (data : List Byte)
  deriving DecidableEq, Repr

/-- The formats of 30_encoding.md R90; the block knows which to expect from its state, never from the bytes (R105). -/
inductive Format where
  /-- F1, toward the block. -/
  | command
  /-- F2, toward the block. -/
  | payload
  /-- F3 and F4, one segment from the block. -/
  | segment
  deriving DecidableEq, Repr

/-- The format of each instruction (30_encoding.md R90). -/
def Instr.format? : Instr → Format
  | .idle .. | .format .. | .formatMd .. | .poll .. | .write .. | .read .. | .status .. | .writeVerify ..
  | .unsupported .. | .notmine .. | .badsum .. => .command
  | .payload _ => .payload
  | .ack | .complete | .nak | .err | .dataBlock _ => .segment

end Sys2Proof
end

