-- ==== Sys2Proof/WellFormed.lean ====
section
/-! DEFINITION. Which instruction terms stand for words of the wire. -/

namespace Sys2Proof

/-- The eight command bytes that have a row of their own (30_encoding.md R99). -/
def namedCommands : List Byte :=
  [Proto.cmdIdle, Proto.cmdFormat, Proto.cmdFormatMd, Proto.cmdPoll, Proto.cmdWrite, Proto.cmdRead,
   Proto.cmdStatus, Proto.cmdWriteVerify]

/-- The checks: UNSUPPORTED has none of the named command bytes (43_dispatch.md R183); NOTMINE has a device id
outside 0x31..0x38 (R171); BADSUM has a checksum byte that is wrong (41_frame_decoder.md R136); a payload chunk and
a data block hold at least one byte (R130, 30_encoding.md R95). -/
def Instr.wellFormed : Instr → Bool
  | .idle .. | .format .. | .formatMd .. | .poll .. | .write .. | .read .. | .status .. | .writeVerify .. => true
  | .unsupported _ c _ _ => !namedCommands.contains c
  | .notmine dev _ _ _ => !Machine.honoured dev
  | .badsum dev c a1 a2 k => Machine.frameChecksum dev c a1 a2 != k
  | .payload data => !data.isEmpty
  | .ack | .complete | .nak | .err => true
  | .dataBlock data => !data.isEmpty

end Sys2Proof
end

