-- ==== Sys2Proof/Decode.lean ====
section
/-! DEFINITION. The decoder of the four formats of 30_encoding.md, total on any bytes and rejecting by name, and
after it the encoder. -/

namespace Sys2Proof

/-- Why a list of bytes is no word of a format. -/
inductive DecodeError where
  /-- A command frame has exactly 5 bytes (30_encoding.md R91). -/
  | frameLength
  /-- A payload chunk holds at least one byte (41_frame_decoder.md R130). -/
  | emptyPayload
  /-- Neither a handshake byte nor data followed by its checksum (30_encoding.md R94, R95). -/
  | notAResponse
  deriving DecidableEq, Repr

/-- The command byte's row, for a valid frame with an honoured device id (30_encoding.md R99). -/
def decodeCommand (d : Drive) (c a1 a2 : Byte) : Instr :=
  if c = Proto.cmdIdle then .idle d a1 a2
  else if c = Proto.cmdStatus then .status d a1 a2
  else if c = Proto.cmdRead then .read d (Machine.sectorOf a1 a2)
  else if c = Proto.cmdWrite then .write d (Machine.sectorOf a1 a2)
  else if c = Proto.cmdWriteVerify then .writeVerify d (Machine.sectorOf a1 a2)
  else if c = Proto.cmdFormat then .format d a1 a2
  else if c = Proto.cmdFormatMd then .formatMd d a1 a2
  else if c = Proto.cmdPoll then .poll d a1 a2
  else .unsupported d c a1 a2

/-- Five assembled bytes, in the order of tests of 30_encoding.md R98: checksum, device id, command byte. Total:
every five bytes are some row (R100). -/
def decodeFrame (dev c a1 a2 k : Byte) : Instr :=
  if Machine.frameChecksum dev c a1 a2 ≠ k then .badsum dev c a1 a2 k
  else if Machine.honoured dev = false then .notmine dev c a1 a2
  else decodeCommand (Machine.driveOf dev) c a1 a2

/-- One segment's bytes as a row of formats F3 and F4 (30_encoding.md R94, R95). -/
def decodeSegment (bytes : List Byte) : Option Instr :=
  match bytes with
  | [] => none
  | [b] =>
    if b = Proto.ack then some .ack
    else if b = Proto.complete then some .complete
    else if b = Proto.nak then some .nak
    else if b = Proto.err then some .err
    else none
  | b :: c :: rest =>
    if Machine.dataBlockBytes ((b :: c :: rest).dropLast) = some (b :: c :: rest)
    then some (.dataBlock ((b :: c :: rest).dropLast))
    else none

/-- The decoder. -/
def decode : Format → List Byte → Except DecodeError Instr
  | .command, [dev, c, a1, a2, k] => .ok (decodeFrame dev c a1 a2 k)
  | .command, _ => .error .frameLength
  | .payload, [] => .error .emptyPayload
  | .payload, b :: bs => .ok (.payload (b :: bs))
  | .segment, bytes =>
    match decodeSegment bytes with
    | some i => .ok i
    | none => .error .notAResponse

/-- A frame with its checksum appended (30_encoding.md R106). -/
def encodeFrame (dev c a1 a2 : Byte) : List Byte :=
  [dev, c, a1, a2, Machine.frameChecksum dev c a1 a2]

/-- The words of an instruction, in order of arrival or transmission (30_encoding.md R91 to R95, R106). -/
def encode : Instr → List Byte
  | .idle d a1 a2 => encodeFrame (Machine.deviceIdOf d) Proto.cmdIdle a1 a2
  | .format d a1 a2 => encodeFrame (Machine.deviceIdOf d) Proto.cmdFormat a1 a2
  | .formatMd d a1 a2 => encodeFrame (Machine.deviceIdOf d) Proto.cmdFormatMd a1 a2
  | .poll d a1 a2 => encodeFrame (Machine.deviceIdOf d) Proto.cmdPoll a1 a2
  | .write d n => encodeFrame (Machine.deviceIdOf d) Proto.cmdWrite (Machine.aux1Of n) (Machine.aux2Of n)
  | .read d n => encodeFrame (Machine.deviceIdOf d) Proto.cmdRead (Machine.aux1Of n) (Machine.aux2Of n)
  | .status d a1 a2 => encodeFrame (Machine.deviceIdOf d) Proto.cmdStatus a1 a2
  | .writeVerify d n => encodeFrame (Machine.deviceIdOf d) Proto.cmdWriteVerify (Machine.aux1Of n) (Machine.aux2Of n)
  | .unsupported d c a1 a2 => encodeFrame (Machine.deviceIdOf d) c a1 a2
  | .notmine dev c a1 a2 => encodeFrame dev c a1 a2
  | .badsum dev c a1 a2 k => [dev, c, a1, a2, k]
  | .payload data => data
  | .ack => [Proto.ack]
  | .complete => [Proto.complete]
  | .nak => [Proto.nak]
  | .err => [Proto.err]
  | .dataBlock data => (Machine.dataBlockBytes data).getD []

/-- The `n` bytes of a word, the most significant byte first: the numbering of 30_encoding.md R92, where byte 0 of a
frame is bits 39..32. -/
def wordBytes : Nat → Nat → List Byte
  | 0, _ => []
  | n + 1, w => BitVec.ofNat 8 (w >>> (8 * n)) :: wordBytes n w

/-- What a word of `nbits` bits, numbered as spec/opcode_table.json numbers it, is laid out as: 8 bits are one byte
(a handshake byte where it is one of the four codes, else a payload byte), 16 bits a data block of one byte and its
checksum, anything longer the 40 bits of a command frame with the bits above `nbits` zero (log entry 6, DESIGN CHOICE, safe). -/
def tableLayout (nbits w : Nat) : Format × List Byte :=
  if nbits ≤ 8 then
    match decodeSegment (wordBytes 1 w) with
    | some _ => (.segment, wordBytes 1 w)
    | none => (.payload, wordBytes 1 w)
  else if nbits ≤ 16 then (.segment, wordBytes 2 w)
  else (.command, wordBytes 5 w)

/-- The instruction the decoder reads from a word of the opcode table. -/
def decodeTableWord (nbits w : Nat) : Option Instr :=
  match decode (tableLayout nbits w).1 (tableLayout nbits w).2 with
  | .ok i => some i
  | .error _ => none

end Sys2Proof
end

