-- ==== Sys2Proof/Machine/State.lean ====
section
/-! DEFINITION. The state of the block as plain data, the events its environment presents, the reasons a step can
be refused, and the state after reset (10_state.md). -/

namespace Sys2Proof.Machine

/-- The protocol state (10_state.md R20, R21). -/
inductive PState where
  | awaitingCommand
  | processingCommand
  | awaitingSectorData
  | processingData
  deriving DecidableEq, Repr

/-- A ResponseSegment (10_state.md R28); the delay is in microseconds. -/
structure Segment where
  bytes : List Byte
  delayMicros : Nat
  mustDrain : Bool
  deriving DecidableEq, Repr

/-- The phase of the segment in progress (10_state.md R29). -/
inductive TxPhase where
  | idle
  | waitDelay
  | waitWrite
  | waitDrain
  deriving DecidableEq, Repr

/-- What the end of a sequence does to the protocol state (10_state.md R31). -/
inductive Continuation where
  | toAwaitingCommand
  | toAwaitingSectorData
  | noChange
  deriving DecidableEq, Repr

/-- The pending-write register's record (10_state.md R25). -/
structure PendingWrite where
  drive : Drive
  sector : Sector
  len : Nat
  deriving DecidableEq, Repr

/-- Who asks the transmitter to start a sequence (45_response_transmitter.md R220). -/
inductive Requester where
  | engine
  | other (k : Nat)
  deriving DecidableEq, Repr

/-- Why a handle refuses (42_drive_registry.md R150, R154): `invalidSector` is the reference image's reason
(20_memory.md R66), any other handle names a code of its own. -/
inductive HandleError where
  | invalidSector
  | code (x : Nat)
  deriving DecidableEq, Repr

/-- The failures of a drive-port call (42_drive_registry.md R150). -/
inductive DriveError where
  | invalidDriveIndex
  | noDrive
  | handleError (x : HandleError)
  deriving DecidableEq, Repr

/-- `Ok(value)` or `Err(e)` (42_drive_registry.md R150). -/
inductive Answer (α : Type) where
  | ok (a : α)
  | err (e : DriveError)
  deriving DecidableEq, Repr

/-- The sectors of a reference image: sector number and datum, numbers strictly rising, none equal to what an
unlisted sector reads as (log entry 10, DESIGN CHOICE, unsafe). A sector is transferred whole (20_memory.md R69), so it is the smallest
addressable unit. -/
abbrev Memory := List (Nat × List Byte)

/-- The reference drive image of 20_memory.md R66. `data` lists the sectors that differ from the fill. -/
structure Image where
  size : Nat
  bootSize : Nat
  nBoot : Nat
  count : Nat
  data : Memory
  status : Vector Byte 4
  readOnly : Bool
  deriving DecidableEq, Repr

/-- Any other handle: who it is and the calls it has received, newest first (20_memory.md R66, R67; log entry 11, DEDUCED, safe,
DEDUCED, safe). `geometry` is the configured sector size and count of a fresh default image (00_scope.md R9), where the
handle is one. -/
structure ExternalHandle where
  id : Nat
  geometry : Option (Nat × Nat)
  calls : List HandleCall
  deriving DecidableEq, Repr

/-- What a slot is bound to (10_state.md R32, 20_memory.md R66), held by value: two slots never share an image (log entry
26, DESIGN CHOICE, unsafe). -/
inductive Handle where
  | reference (img : Image)
  | external (h : ExternalHandle)
  deriving DecidableEq, Repr

/-- Why an UnknownDrive diagnostic is raised (60_exceptions.md R240). -/
inductive UnknownReason where
  | outOfRange
  | slotUnbound
  deriving DecidableEq, Repr

/-- The drive an UnknownDrive diagnostic names: a device id (43_dispatch.md R171, R174) or a drive index
(44_sector_write_receiver.md R205). -/
inductive DriveName where
  | device (id : Byte)
  | index (d : Drive)
  deriving DecidableEq, Repr

/-- The cause of a FramingError (60_exceptions.md R241). -/
inductive FramingCause where
  | length
  | checksum
  deriving DecidableEq, Repr

/-- The diagnostics of 60_exceptions.md R240 with their info. -/
inductive Diagnostic where
  | framingError (cause : FramingCause) (discarded : List Byte)
  | unsupportedCommand (command deviceId : Byte)
  | unknownDrive (who : DriveName) (reason : UnknownReason)
  | transportError (report : Nat)
  | concurrentWriteViolation (req : Requester)
  | timeoutFrame (discarded : List Byte)
  | timeoutPayload (received expected : Nat)
  | unexpectedData (bytes : List Byte) (state : PState)
  | driveFault (e : DriveError)
  deriving DecidableEq, Repr

/-- One record of the diagnostic trace (10_state.md R34). -/
structure DiagRecord where
  diagnostic : Diagnostic
  time : Time
  deriving DecidableEq, Repr

/-- One record of the transmit trace (10_state.md R33). -/
structure TxRecord where
  bytes : List Byte
  time : Time
  deriving DecidableEq, Repr

/-- The drive-port operations with their arguments (42_drive_registry.md R153 to R157); the index is any integer. -/
inductive DriveOp where
  | status (i : Int)
  | readSector (i : Int) (n : Sector)
  | writeSector (i : Int) (n : Sector) (bytes : List Byte)
  | sectorSize (i : Int) (n : Option Sector)
  | sectorCount (i : Int)
  | format (i : Int)
  deriving DecidableEq, Repr

/-- What a drive-port call returns when it succeeds. -/
inductive DriveValue where
  | bytes (l : List Byte)
  | number (n : Nat)
  | done
  deriving DecidableEq, Repr

/-- One record of the drive-port trace (10_state.md R35). -/
structure DriveCall where
  op : DriveOp
  result : Answer DriveValue
  deriving DecidableEq, Repr

/-- The results given back to callers outside the block: `Ok`, or the refusal of 45_response_transmitter.md R227, or
the registry error of 42_drive_registry.md R151, R152 (log entry 17, DESIGN CHOICE, safe). -/
inductive Reply where
  | txStarted (k : Nat)
  | txRefused (k : Nat)
  | bound (result : Answer Unit)
  | unbound (result : Answer Unit)
  deriving DecidableEq, Repr

/-- The events that make the block step (60_exceptions.md R252), the flushing of queued bytes by the transport
(10_state.md R37) and reset (70_reset_and_hazards.md R272). -/
inductive Event where
  | rxChunk (bytes : List Byte)
  | abortTimeout
  | deadline
  | writeDone
  | drainDone
  | transportError (report : Nat)
  | txStart (k : Nat) (segs : List Segment)
  | bind (i : Int) (h : Handle)
  | unbind (i : Int)
  | flushed (n : Nat)
  | reset
  deriving DecidableEq, Repr

/-- An event and the instant at which it happens (00_scope.md R13). -/
structure TimedEvent where
  time : Time
  event : Event
  deriving DecidableEq, Repr

/-- The state (10_state.md). The environment's `now`, `txQueued` and `pending`, the traces and the model's own
`replies` and `draws` stand beside the block's registers; INVENTORY.md lists each with its rule. -/
structure State where
  /-- The configuration record (R36). -/
  config : Config
  /-- The monotonic clock (00_scope.md R13). -/
  now : Time
  /-- The protocol state (R20). -/
  pstate : PState
  /-- The frame buffer (R22). -/
  fbuf : List Byte
  /-- The receive timestamp `t_rx` (R23). -/
  tRx : Time
  /-- The payload buffer (R24). -/
  pbuf : List Byte
  /-- The pending-write register (R25). -/
  pw : Option PendingWrite
  /-- The writer lock `tx_active` (R27). -/
  txActive : Bool
  /-- The segment queue `tx_segs` (R28). -/
  txSegs : List Segment
  /-- The phase of the segment in progress `tx_phase` (R29). -/
  txPhase : TxPhase
  /-- The timing reference point `t_ref` (R30). -/
  tRef : Time
  /-- The continuation of the sequence in flight `tx_cont` (R31). -/
  txCont : Continuation
  /-- The drive table (R32). -/
  slots : Vector (Option Handle) 8
  /-- The number of bytes the transport has queued and not yet flushed (R37). -/
  txQueued : Nat
  /-- The transmit trace (R33). -/
  txTrace : List TxRecord
  /-- The diagnostic trace (R34). -/
  diag : List DiagRecord
  /-- The drive-port trace (R35). -/
  driveTrace : List DriveCall
  /-- The results given back to the management host and to external requesters, oldest first (log entry 17, DESIGN CHOICE, safe). -/
  replies : List Reply
  /-- The events the environment will present, in order (log entry 1, DESIGN CHOICE, safe). -/
  pending : List TimedEvent
  /-- How many fresh default images have been made (log entry 13, DESIGN CHOICE, safe). -/
  draws : Nat
  deriving DecidableEq, Repr

/-- The machine stops with no fault: "The block never halts" (70_reset_and_hazards.md R276), every error is recovered
inside the step that raised it (60_exceptions.md R255, R256). So there is no reason (log entry 25, DEDUCED, safe). -/
inductive Fault where
  deriving DecidableEq, Repr

/-- Why the model gives no step: `refuse` of 93_implementation_defined.md, "the model gives no step; the environment
must not do it". Each is safe: the run stops where the spec allows no step. -/
inductive Refusal where
  /-- Raised by an arm of `exec` that has no meaning yet; none is left. Safe. -/
  | notModelled (mnemonic : String)
  /-- Raised by READ of an empty sector and by DATA_BLOCK: a data block would need the checksum of an empty list, which is
  not defined (40_checksum.md R123). Safe. -/
  | checksumOfEmpty
  /-- Raised by WRITE, WRITE_VERIFY, FORMAT and PAYLOAD: the handle reports a sector size outside
  1..SECTOR_SIZE_MAX (92_eei_decisions.md D24). Safe. -/
  | sectorSizeOutOfRange
  /-- Raised by ACK, COMPLETE, NAK, ERR, DATA_BLOCK and by a `Deadline`: the transmitter is not waiting to send that
  segment (45_response_transmitter.md R222). Safe. -/
  | segmentNotWaiting
  /-- Raised by the same: the head segment's delay has not passed (R222). Safe. -/
  | deadlineNotReached
  /-- Raised by an `AbortTimeout` that is not enabled (44_sector_write_receiver.md R206). Safe. -/
  | abortNotDue
  /-- Raised by a `DrainDone` while the transport still holds bytes (10_state.md R37, R224). Safe. -/
  | drainNotFlushed
  /-- Raised by an event that flushes more bytes than are queued (10_state.md R37). Safe. -/
  | flushedTooMany
  /-- Raised by an `RxChunk` of no byte or of more than RX_CHUNK_MAX bytes (41_frame_decoder.md R130). Safe. -/
  | chunkLength
  /-- Raised by a `TxStart` whose sequence or one of whose segments is empty (R219). Safe. -/
  | emptySequence
  /-- Raised by an event stamped earlier than the one before (00_scope.md R13, 60_exceptions.md R253). Safe. -/
  | timeReversed
  /-- Raised by PAYLOAD and `AbortTimeout` in a state no run reaches: AwaitingSectorData with no pending write
  (10_state.md R42; log entry 19, DEDUCED, safe). Safe. -/
  | noPendingWrite
  deriving DecidableEq, Repr

/-- The machine right after reset (10_state.md R46, 70_reset_and_hazards.md R270). `t_rx`, which the spec leaves
unspecified, is 0 (log entry 8, DESIGN CHOICE, unsafe); the clock counts from release (log entry 9, DESIGN CHOICE, unsafe). -/
def State.reset : State where
  config := Config.initial
  now := 0
  pstate := .awaitingCommand
  fbuf := []
  tRx := 0
  pbuf := []
  pw := none
  txActive := false
  txSegs := []
  txPhase := .idle
  tRef := 0
  txCont := .noChange
  slots := Vector.replicate 8 none
  txQueued := 0
  txTrace := []
  diag := []
  driveTrace := []
  replies := []
  pending := []
  draws := 0

end Sys2Proof.Machine
end

