-- ==== Sys2Proof/Machine/Image.lean ====
section
/-! DEFINITION. What stands behind a bound slot: the sector store of the reference image (20_memory.md R66) and the
handles whose answers are any value within R67. -/

namespace Sys2Proof.Machine

/-! ### The sector store: a list of sectors in canonical form -/

/-- The datum of sector `n`; an unlisted sector reads as `dflt`. -/
def Memory.read (dflt : List Byte) : Memory → Nat → List Byte
  | [], _ => dflt
  | (k, v) :: rest, n => if n = k then v else Memory.read dflt rest n

/-- Insert in order, or replace. -/
def Memory.put : Memory → Nat → List Byte → Memory
  | [], n, b => [(n, b)]
  | (k, v) :: rest, n, b =>
    if n < k then (n, b) :: (k, v) :: rest
    else if n = k then (n, b) :: rest
    else (k, v) :: Memory.put rest n b

/-- Take a sector off the list, so that it reads as the unlisted. -/
def Memory.drop : Memory → Nat → Memory
  | [], _ => []
  | (k, v) :: rest, n => if n = k then Memory.drop rest n else (k, v) :: Memory.drop rest n

/-- A write that keeps the canonical form: what an unlisted sector reads as is not listed. -/
def Memory.write (dflt : List Byte) (m : Memory) (n : Nat) (b : List Byte) : Memory :=
  if b = dflt then m.drop n else m.put n b

/-- The canonical form: sector numbers strictly rising, and no sector equal to what an unlisted one reads as. -/
def Memory.wf (dflt : Nat → List Byte) : Memory → Bool
  | [] => true
  | (k, v) :: rest => rest.all (fun e => decide (k < e.1)) && decide (v ≠ dflt k) && Memory.wf dflt rest

/-! ### The reference image, 20_memory.md R66 -/

/-- `getSectorSize(n?)`. -/
def Image.sectorSize (img : Image) : Option Nat → Nat
  | some n => if 1 ≤ n ∧ n ≤ img.nBoot then img.bootSize else img.size
  | none => img.size

/-- What a sector that the image does not list reads as: a formatted sector (log entry 10, DESIGN CHOICE, unsafe). -/
def Image.unlisted (img : Image) (n : Nat) : List Byte :=
  List.replicate (img.sectorSize (some n)) Proto.fill

/-- Whether the image has the sector: `1 ≤ n ≤ count`. -/
def Image.inRange (img : Image) (n : Nat) : Bool :=
  decide (1 ≤ n) && decide (n ≤ img.count)

/-- `data(n)` of R66. -/
def Image.sector (img : Image) (n : Nat) : List Byte :=
  img.data.read (img.unlisted n) n

/-- `getSector(n)`: `none` for `Err(InvalidSector)`. -/
def Image.getSector (img : Image) (n : Nat) : Option (List Byte) :=
  if img.inRange n then some (img.sector n) else none

/-- `putSector(n, b)`: `none` for `Err(InvalidSector)`. -/
def Image.putSector (img : Image) (n : Nat) (b : List Byte) : Option Image :=
  if img.inRange n then some { img with data := img.data.write (img.unlisted n) n b } else none

/-- `format(size', count')`: every sector 1..count' becomes the fill of its size, so none is listed. -/
def Image.format (img : Image) (size count : Nat) : Image :=
  { img with size := size, count := count, data := [] }

/-- What R66 asks of an image, with its sectors in canonical form and inside 1..count. -/
def Image.wf (img : Image) : Bool :=
  decide (1 ≤ img.size) && decide (1 ≤ img.bootSize) && decide (1 ≤ img.count) &&
  img.data.wf img.unlisted && img.data.all (fun e => img.inRange e.1)

/-! ### Any other handle: an oracle limited by 20_memory.md R67 -/

/-- What R67 fixes of the datum of a sector. -/
inductive Known where
  | nothing
  | written (bytes : List Byte) (short : Bool)
  | formatted
  deriving DecidableEq, Repr

/-- The last accepted write of sector `n` since the last accepted format, searching the calls newest first: a later
READ "is answered from the written data" (R67 (b), 20_memory.md R81). -/
def lastWrite : List HandleCall → Nat → Known
  | [], _ => .nothing
  | .putSector k b short true :: rest, n => if n = k then .written b short else lastWrite rest n
  | .format _ _ true :: _, _ => .nothing
  | _ :: rest, n => lastWrite rest n

/-- Whether the calls end in a `format(index)` of 42_drive_registry.md R157, whose last call asks the size: R67 (a) speaks
of the "immediate" `readSector` only. -/
def justFormatted : List HandleCall → Bool
  | .getSectorSize none :: .format _ _ true :: _ => true
  | _ => false

/-- What R67 fixes of the answer to the coming `getSector(n)`; after any other call a formatted sector is any value
(20_memory.md R73, 93_implementation_defined.md U25). -/
def known (calls : List HandleCall) (n : Nat) : Known :=
  if justFormatted calls then .formatted else lastWrite calls n

/-- The size an external handle reports: the configured size of a default image for no argument (R156), else any value
in 1..SECTOR_SIZE_MAX (92_eei_decisions.md D24). -/
def ExternalHandle.sizeNow (max : Nat) (h : ExternalHandle) (n : Option Nat) : Nat :=
  match n, h.geometry with
  | none, some (size, _) => size
  | _, _ => Config.handleSize h.id h.calls n % max + 1

/-- The count an external handle reports: that of a default image, else any value. -/
def ExternalHandle.countNow (h : ExternalHandle) : Nat :=
  match h.geometry with
  | some (_, count) => count
  | none => Config.handleCount h.id h.calls

/-- The sector an external handle returns if it accepts the number: what was written to it (R67 (b)), the fill of
the reported size right after a format (R67 (a)), else any value. After a write shorter than the sector the rest is any
value (93_implementation_defined.md U7; log entry 12, DEDUCED, safe). -/
def ExternalHandle.sectorNow (max : Nat) (h : ExternalHandle) (n : Nat) : Option (List Byte) :=
  match known h.calls n, Config.handleSector h.id h.calls n with
  | .written b false, _ => some b
  | .written b true, _ => some (b ++ Config.handleRest h.id h.calls n)
  | .formatted, some _ => some (List.replicate (h.sizeNow max (some n)) Proto.fill)
  | .nothing, some (b, bs) => some (b :: bs)
  | _, none => none

/-- A call of the contract that asks and does not write (20_memory.md R61, R73). -/
def asks : HandleCall → Bool
  | .getStatusBytes | .getSectorSize _ | .getSectorCount | .getSector _ => true
  | .putSector .. | .format .. => false

/-- The handle after one more call. -/
def ExternalHandle.called (h : ExternalHandle) (c : HandleCall) : ExternalHandle :=
  { h with calls := c :: h.calls }

/-! ### The contract of 20_memory.md R61: each call answers and leaves the handle as it then is -/

/-- `getStatusBytes() -> 4 bytes`. -/
def Handle.getStatusBytes : Handle → Vector Byte 4 × Handle
  | .reference img => (img.status, .reference img)
  | .external h => (Config.handleStatus h.id h.calls, .external (h.called .getStatusBytes))

/-- `getSectorSize(n?) -> int`. -/
def Handle.getSectorSize (max : Nat) (n : Option Nat) : Handle → Nat × Handle
  | .reference img => (img.sectorSize n, .reference img)
  | .external h => (h.sizeNow max n, .external (h.called (.getSectorSize n)))

/-- `getSectorCount() -> int`. -/
def Handle.getSectorCount : Handle → Nat × Handle
  | .reference img => (img.count, .reference img)
  | .external h => (h.countNow, .external (h.called .getSectorCount))

/-- `getSector(n) -> bytes`, or a refusal. -/
def Handle.getSector (max : Nat) (n : Nat) : Handle → Answer (List Byte) × Handle
  | .reference img =>
    match img.getSector n with
    | some b => (.ok b, .reference img)
    | none => (.err (.handleError .invalidSector), .reference img)
  | .external h =>
    match h.sectorNow max n with
    | some b => (.ok b, .external (h.called (.getSector n)))
    | none =>
      (.err (.handleError (.code (Config.handleReadError h.id h.calls n))), .external (h.called (.getSector n)))

/-- `putSector(n, bytes)`, or a refusal; `size` is the size the handle has just reported for the sector. -/
def Handle.putSector (n : Nat) (b : List Byte) (size : Nat) : Handle → Answer Unit × Handle
  | .reference img =>
    match img.putSector n b with
    | some img' => (.ok (), .reference img')
    | none => (.err (.handleError .invalidSector), .reference img)
  | .external h =>
    match Config.handlePut h.id h.calls n b with
    | none => (.ok (), .external (h.called (.putSector n b (decide (b.length < size)) true)))
    | some x =>
      (.err (.handleError (.code x)), .external (h.called (.putSector n b (decide (b.length < size)) false)))

/-- `format(size, count)`, or a refusal. -/
def Handle.format (size count : Nat) : Handle → Answer Unit × Handle
  | .reference img => (.ok (), .reference (img.format size count))
  | .external h =>
    match Config.handleFormat h.id h.calls size count with
    | none => (.ok (), .external (h.called (.format size count true)))
    | some x => (.err (.handleError (.code x)), .external (h.called (.format size count false)))

/-- A handle after a `format(size, count)` that it accepts. -/
def Handle.formatted (size count : Nat) : Handle → Handle
  | .reference img => .reference (img.format size count)
  | .external h => .external (h.called (.format size count true))

/-- `newDefaultImage(size, count)` of 42_drive_registry.md R157, the `draw`-th: a reference image or another handle, of
that geometry and free in everything else (R158; log entry 13, DESIGN CHOICE, safe). -/
def newDefaultImage (max size count draw : Nat) : Handle :=
  match Config.freshKind draw with
  | some id => .external ⟨id, some (size, count), []⟩
  | none =>
    .reference ⟨size, Config.freshBootSize draw % max + 1, Config.freshBootCount draw, count, [],
      Config.freshStatus draw, Config.freshReadOnly draw⟩

/-- The default image as `format(index)` leaves it: created, formatted, asked its size (R157). -/
def freshImage (c : Config) (draw : Nat) : Handle :=
  (((newDefaultImage c.sectorSizeMax c.defaultSectorSize c.defaultSectorCount draw).formatted c.defaultSectorSize
    c.defaultSectorCount).getSectorSize c.sectorSizeMax none).2

/-- A handle is well formed when the reference image it is, if it is one, is. -/
def Handle.wf : Handle → Bool
  | .reference img => img.wf
  | .external _ => true

end Sys2Proof.Machine
end

