-- ==== Sys2Proof/Machine/Registry.lean ====
section
/-! DEFINITION. The Drive Registry and the drive port (42_drive_registry.md). Every operation validates its index
first, forwards to the bound handle, and is recorded in the drive-port trace. -/

namespace Sys2Proof.Machine

/-- The slot an index names, if it is 0..7 (R150). -/
def slotOf (i : Int) : Option Drive :=
  if 0 ≤ i ∧ i < 8 then some (Fin.ofNat 8 i.toNat) else none

/-- What a drive-port call comes to: an answer and the state after it, or an answer of the environment for which
the model gives no step (40_checksum.md R123, 92_eei_decisions.md D24). -/
inductive Port (α : Type) where
  | answered (a : Answer α) (s : State)
  | refused (r : Refusal)
  deriving DecidableEq, Repr

/-- `Ok` and `Err` with the value rewritten for the trace. -/
def Answer.map {α β : Type} (f : α → β) : Answer α → Answer β
  | .ok a => .ok (f a)
  | .err e => .err e

/-- Append a call to the drive-port trace (10_state.md R35). -/
def logCall (op : DriveOp) (r : Answer DriveValue) (s : State) : State :=
  { s with driveTrace := s.driveTrace ++ [⟨op, r⟩] }

/-- Put a handle into a slot (10_state.md R32). -/
def setSlot (d : Drive) (h : Option Handle) (s : State) : State :=
  { s with slots := s.slots.set d h }

/-- End a call: the handle as the call leaves it, and the record of the call. -/
def answer {α : Type} (op : DriveOp) (value : α → DriveValue) (d : Drive) (h : Handle) (a : Answer α) (s : State) :
    Port α :=
  .answered a (logCall op (a.map value) (setSlot d (some h) s))

/-- A call that fails before it reaches a handle. -/
def fail {α : Type} (op : DriveOp) (e : DriveError) (s : State) : Port α :=
  .answered (.err e) (logCall op (.err e) s)

/-- The part every forwarding operation shares: `InvalidDriveIndex` outside 0..7, `NoDrive` on an unbound slot, else
what the bound handle does (R150, R153 to R156). -/
def onHandle {α : Type} (op : DriveOp) (i : Int) (s : State) (f : Drive → Handle → Port α) : Port α :=
  match slotOf i with
  | none => fail op .invalidDriveIndex s
  | some d =>
    match s.slots[d] with
    | none => fail op .noDrive s
    | some h => f d h

/-- Whether a reported sector size is one the environment may report (92_eei_decisions.md D24). -/
def sizeOk (s : State) (n : Nat) : Bool :=
  decide (1 ≤ n) && decide (n ≤ s.config.sectorSizeMax)

/-- `status(index)` (R153). -/
def portStatus (i : Int) (s : State) : Port (Vector Byte 4) :=
  onHandle (.status i) i s fun d h =>
    answer (.status i) (fun st => .bytes st.toList) d h.getStatusBytes.2 (.ok h.getStatusBytes.1) s

/-- `readSector(index, sectorNumber)` (R154): the number is passed unchanged. -/
def portReadSector (i : Int) (n : Sector) (s : State) : Port (List Byte) :=
  onHandle (.readSector i n) i s fun d h =>
    answer (.readSector i n) .bytes d (h.getSector s.config.sectorSizeMax n.toNat).2
      (h.getSector s.config.sectorSizeMax n.toNat).1 s

/-- `writeSector(index, sectorNumber, bytes)` (R155): clipped to the size the handle reports now; `isReadOnly` is
not consulted. -/
def portWriteSector (i : Int) (n : Sector) (bytes : List Byte) (s : State) : Port Unit :=
  onHandle (.writeSector i n bytes) i s fun d h =>
    match h.getSectorSize s.config.sectorSizeMax (some n.toNat) with
    | (size, h1) =>
      if sizeOk s size then
        answer (.writeSector i n bytes) (fun _ => .done) d (h1.putSector n.toNat (bytes.take size) size).2
          (h1.putSector n.toNat (bytes.take size) size).1 s
      else .refused .sectorSizeOutOfRange

/-- `sectorSize(index, sectorNumber?)` (R156). -/
def portSectorSize (i : Int) (n : Option Sector) (s : State) : Port Nat :=
  onHandle (.sectorSize i n) i s fun d h =>
    match h.getSectorSize s.config.sectorSizeMax (n.map BitVec.toNat) with
    | (size, h1) =>
      if sizeOk s size then answer (.sectorSize i n) .number d h1 (.ok size) s
      else .refused .sectorSizeOutOfRange

/-- `sectorCount(index)` (R156); no dispatch rule calls it. -/
def portSectorCount (i : Int) (s : State) : Port Nat :=
  onHandle (.sectorCount i) i s fun d h =>
    answer (.sectorCount i) .number d h.getSectorCount.2 (.ok h.getSectorCount.1) s

/-- `format` on a bound handle (R157): at its configured size and count, then the fill of the size it reports. -/
def formatBound (i : Int) (d : Drive) (h : Handle) (s : State) : Port (List Byte) :=
  match h.getSectorSize s.config.sectorSizeMax none with
  | (size, h1) =>
    if sizeOk s size then
      match h1.getSectorCount with
      | (count, h2) =>
        match h2.format size count with
        | (.err e, h3) => answer (.format i) .bytes d h3 (.err e) s
        | (.ok _, h3) =>
          match h3.getSectorSize s.config.sectorSizeMax none with
          | (size', h4) =>
            if sizeOk s size' then answer (.format i) .bytes d h4 (.ok (List.replicate size' Proto.fill)) s
            else .refused .sectorSizeOutOfRange
    else .refused .sectorSizeOutOfRange

/-- `format` on an unbound slot (R157): a fresh default image is bound. The size it reports is DEFAULT_SECTOR_SIZE
(`freshImage_size`). -/
def formatFresh (i : Int) (d : Drive) (s : State) : Port (List Byte) :=
  answer (.format i) .bytes d
    (freshImage s.config s.draws)
    (.ok (List.replicate s.config.defaultSectorSize Proto.fill)) { s with draws := s.draws + 1 }

/-- `format(index)` (R157): unlike the others it does not fail with `NoDrive`. -/
def portFormat (i : Int) (s : State) : Port (List Byte) :=
  match slotOf i with
  | none => fail (.format i) .invalidDriveIndex s
  | some d =>
    match s.slots[d] with
    | some h => formatBound i d h s
    | none => formatFresh i d s

/-- `bind(index, handle)` (R151): a bound slot's handle is replaced. The spec does not say whether a handle that another
slot holds may be bound, nor whether the two slots then share its image. The model binds it, as the words of R151 read,
and, a slot holding its handle by value, each slot's image is then changed through that slot only (log entry 26, DESIGN
CHOICE, unsafe). -/
def bindSlot (i : Int) (h : Handle) (s : State) : State :=
  match slotOf i with
  | none => { s with replies := s.replies ++ [.bound (.err .invalidDriveIndex)] }
  | some d => { setSlot d (some h) s with replies := s.replies ++ [.bound (.ok ())] }

/-- `unbind(index)` (R152): unbinding an unbound slot is `Ok`. -/
def unbindSlot (i : Int) (s : State) : State :=
  match slotOf i with
  | none => { s with replies := s.replies ++ [.unbound (.err .invalidDriveIndex)] }
  | some d => { setSlot d none s with replies := s.replies ++ [.unbound (.ok ())] }

end Sys2Proof.Machine
end

