-- ==== Sys2Proof/Machine/Flags.lean ====
section
/-! DEFINITION. The block has no flags and no status register: "the diagnostic trace replaces them" (10_state.md
R48). Raising a diagnostic, and the numbers of the diagnostics (60_exceptions.md R240). -/

namespace Sys2Proof.Machine

/-- The codes of the table of R240. -/
def Diagnostic.number : Diagnostic → Nat
  | .framingError .. => 1
  | .unsupportedCommand .. => 2
  | .unknownDrive .. => 3
  | .transportError _ => 4
  | .concurrentWriteViolation _ => 5
  | .timeoutFrame _ => 6
  | .timeoutPayload .. => 6
  | .unexpectedData .. => 7
  | .driveFault _ => 8

/-- `raise X(info)` "appends the record `(code(X), info, now)` to `diag` and does nothing else by itself" (R240). -/
def raise (d : Diagnostic) (s : State) : State :=
  { s with diag := s.diag ++ [⟨d, s.now⟩] }

end Sys2Proof.Machine
end

