-- ==== Sys2Proof/Machine/Transmitter.lean ====
section
/-! DEFINITION. The Response Transmitter, the Timing Gate and the single-writer lock (45_response_transmitter.md). -/

namespace Sys2Proof.Machine

/-- The outcome of a step of this machine. -/
abbrev Result := Host.Outcome State Fault Refusal

/-- `AckSeg(d)` (43_dispatch.md R184). -/
def ackSeg (c : Config) (drain : Bool) : Segment := ⟨[Proto.ack], c.tAck, drain⟩

/-- `CompleteSeg(d)` (R184). -/
def completeSeg (c : Config) (drain : Bool) : Segment := ⟨[Proto.complete], c.tComplete, drain⟩

/-- `DataSeg(data, d)` (R184); `none` for no data, whose checksum is not defined (40_checksum.md R123). -/
def dataSeg (c : Config) (data : List Byte) (drain : Bool) : Option Segment :=
  (dataBlockBytes data).map fun bytes => ⟨bytes, c.tData, drain⟩

/-- Whether a sequence may be offered: not empty, and no segment of no bytes (R219). -/
def sequenceOk (segs : List Segment) : Bool :=
  !segs.isEmpty && segs.all (fun g => !g.bytes.isEmpty)

/-- An accepted `TxStart` (R221): the lock is taken, segments and continuation latched; `t_ref` is not changed. -/
def txAccept (segs : List Segment) (cont : Continuation) (s : State) : State :=
  { s with txActive := true, txSegs := segs, txCont := cont, txPhase := .waitDelay }

/-- `TxStart(req, segs, cont)` (R218, R221, R227): whether it was accepted, and the state after it. -/
def txStart (req : Requester) (segs : List Segment) (cont : Continuation) (s : State) : Bool × State :=
  if s.txActive then (false, raise (.concurrentWriteViolation req) s)
  else (true, txAccept segs cont s)

/-- `EngineStart(segs, cont)` (43_dispatch.md R185): if another requester holds the lock, the violation is raised,
`pw` is cleared and the block goes back to AwaitingCommand. -/
def engineStart (segs : List Segment) (cont : Continuation) (s : State) : State :=
  match txStart .engine segs cont s with
  | (true, s') => s'
  | (false, s') => { s' with pw := none, pstate := .awaitingCommand }

/-- `TxStart` of a requester outside the block, and the result it is given (R220, R221, R227). -/
def externalStart (k : Nat) (segs : List Segment) (s : State) : State :=
  match txStart (.other k) segs .noChange s with
  | (true, s') => { s' with replies := s'.replies ++ [.txStarted k] }
  | (false, s') => { s' with replies := s'.replies ++ [.txRefused k] }

/-- The deadline of a segment, `t_ref + delayMicros × 1000` ns (R217). -/
def deadlineOf (s : State) (g : Segment) : Time := s.tRef + g.delayMicros * Proto.nsPerMicro

/-- `emit Write(bytes)` (R216, R222): the bytes enter the transmit trace and the transport's queue (10_state.md
R33, R37). -/
def emitWrite (bytes : List Byte) (s : State) : State :=
  { s with txTrace := s.txTrace ++ [⟨bytes, s.now⟩], txQueued := s.txQueued + bytes.length, txPhase := .waitWrite }

/-- `Deadline(t)` for a head segment of these bytes (R222): enabled when the transmitter waits to send it and its
deadline has been reached; there is no upper bound. -/
def transmit (bytes : List Byte) (s : State) : Result :=
  match s.txSegs with
  | [] => .refused .segmentNotWaiting
  | g :: _ =>
    if s.txPhase = .waitDelay ∧ g.bytes = bytes then
      if deadlineOf s g ≤ s.now then .next (emitWrite bytes s) else .refused .deadlineNotReached
    else .refused .segmentNotWaiting

/-- What the end of a sequence does to the protocol state (R226); `ToAwaitingSectorData` arms the Sector-Write
Receiver (43_dispatch.md R179). -/
def applyContinuation (c : Continuation) (s : State) : State :=
  match c with
  | .toAwaitingCommand => { s with pstate := .awaitingCommand }
  | .toAwaitingSectorData => { s with pstate := .awaitingSectorData, pbuf := [], tRx := s.now }
  | .noChange => s

/-- `SequenceComplete(t)` (R226). -/
def sequenceComplete (s : State) : State :=
  { applyContinuation s.txCont { s with txActive := false, txPhase := .idle } with txCont := .noChange }

/-- `SegmentComplete(t)` (R225): the completion becomes the timing reference, the head is removed. -/
def segmentComplete (s : State) : State :=
  match s.txSegs.drop 1 with
  | [] => sequenceComplete { s with tRef := s.now, txSegs := [] }
  | g :: rest => { s with tRef := s.now, txSegs := g :: rest, txPhase := .waitDelay }

/-- `WriteDone(t)` (R223): in any other phase it is ignored; `WaitDrain` stands for the drain requested. -/
def writeDone (s : State) : State :=
  match s.txPhase, s.txSegs with
  | .waitWrite, g :: _ => if g.mustDrain then { s with txPhase := .waitDrain } else segmentComplete s
  | _, _ => s

/-- `DrainDone(t)` (R224): enabled when the transport's queue is empty (10_state.md R37); in any other phase it is
ignored. -/
def drainDone (s : State) : Result :=
  match s.txPhase with
  | .waitDrain => if s.txQueued = 0 then .next (segmentComplete s) else .refused .drainNotFlushed
  | _ => .next s

/-- The transport physically sends `n` queued bytes (10_state.md R37; log entry 15, DESIGN CHOICE, safe). -/
def flush (n : Nat) (s : State) : Result :=
  if n ≤ s.txQueued then .next { s with txQueued := s.txQueued - n } else .refused .flushedTooMany

end Sys2Proof.Machine
end

