-- ==== Sys2Proof/Machine/Ops.lean ====
section
/-! DEFINITION. The shared operations of the protocol engine: stamping and accepting received bytes, "trap entry"
(60_exceptions.md R255: raise a diagnostic, empty the buffer in use, clear `pw`, go back to AwaitingCommand; there
is no return, R256), and the answers of the drive port. -/

namespace Sys2Proof.Machine

/-- The recovery common to the locally recovered errors (R255). -/
def recover (s : State) : State :=
  { s with pw := none, pstate := .awaitingCommand }

/-- Raise a diagnostic and recover from it: what stands for taking an exception (R255). -/
def abandon (d : Diagnostic) (s : State) : State :=
  recover (raise d s)

/-- A chunk that the block consumes stamps `t_rx` and `t_ref` (41_frame_decoder.md R130). -/
def stampConsumed (s : State) : State :=
  { s with tRx := s.now, tRef := s.now }

/-- Unexpected data (R137): `t_rx` is stamped, `t_ref` is not, the bytes are dropped. -/
def unexpected (bytes : List Byte) (s : State) : State :=
  raise (.unexpectedData bytes s.pstate) { s with tRx := s.now }

/-- A valid frame leaves the buffer and enters dispatch (R135, 43_dispatch.md R170). -/
def acceptFrame (s : State) : State :=
  { s with fbuf := [], pstate := .processingCommand }

/-- Received bytes enter the frame buffer (41_frame_decoder.md R131). -/
def appendFrame (bytes : List Byte) (s : State) : State :=
  { s with fbuf := s.fbuf ++ bytes }

/-- The whole frame buffer is discarded with a diagnostic (R132, R134, R136); `pstate` stays. -/
def discardFrame (m : Diagnostic) (s : State) : State :=
  { raise m s with fbuf := [] }

/-- A frame with a bad checksum (R136): all five bytes are discarded together. -/
def rejectFrame (bytes : List Byte) (s : State) : State :=
  discardFrame (.framingError .checksum bytes) s

/-- The end of a dispatch that sends nothing (43_dispatch.md R170): no diagnostic, `pstate` AwaitingCommand. -/
def backToAwaiting (s : State) : State :=
  { s with pstate := .awaitingCommand }

/-- The diagnostic for a drive-port failure: UnknownDrive for `NoDrive`, DriveFault for any other (R174, R205). -/
def driveDiagnostic (who : DriveName) : DriveError → Diagnostic
  | .noDrive => .unknownDrive who .slotUnbound
  | e => .driveFault e

/-- `AbortSilently(e)` (R174). -/
def abortSilently (d : Drive) (e : DriveError) (s : State) : State :=
  abandon (driveDiagnostic (.device (deviceIdOf d)) e) s

/-- `Unsupported(frame)` (R173), from the accepted frame on. -/
def unsupportedCommand (command deviceId : Byte) (s : State) : State :=
  backToAwaiting (raise (.unsupportedCommand command deviceId) (acceptFrame s))

/-- What a dispatch rule does with the answer of its drive-port call: `AbortSilently` on `Err(e)`, else `k`. -/
def afterPort {α : Type} (d : Drive) (p : Port α) (k : α → State → Result) : Result :=
  match p with
  | .answered (.ok a) s => k a s
  | .answered (.err e) s => .next (abortSilently d e s)
  | .refused r => .refused r

/-- Answer with ACK, COMPLETE and a data block (43_dispatch.md R175, R176, R180). -/
def sendData (data : List Byte) (ackDrain dataDrain : Bool) (s : State) : Result :=
  match dataSeg s.config data dataDrain with
  | some g => .next (engineStart [ackSeg s.config ackDrain, completeSeg s.config false, g] .toAwaitingCommand s)
  | none => .refused .checksumOfEmpty

/-- `Write(i, n)` from the accepted frame on (43_dispatch.md R177): the size is asked for, the pending write set up,
and the ACK sent alone. -/
def beginWrite (d : Drive) (n : Sector) (s : State) : Result :=
  afterPort d (portSectorSize d.val (some n) (acceptFrame s)) fun len s' =>
    .next (engineStart [ackSeg s'.config false] .toAwaitingSectorData { s' with pw := some ⟨d, n, len⟩ })

/-- `AbortPayload(t)` (44_sector_write_receiver.md R201, R206): the partial payload is discarded, the drive is not
touched, nothing is transmitted. -/
def abortPayload (p : PendingWrite) (s : State) : State :=
  recover { raise (.timeoutPayload s.pbuf.length p.len) s with pbuf := [] }

/-- Event `AbortTimeout(t)` (R206 (a)): enabled in AwaitingSectorData once the silence exceeds `T_ABORT`. -/
def abortTimeout (s : State) : Result :=
  if s.pstate = .awaitingSectorData ∧ s.config.tAbort < s.now - s.tRx then
    match s.pw with
    | some p => .next (abortPayload p s)
    | none => .refused .noPendingWrite
  else .refused .abortNotDue

/-- Event `TransportError(t)` (60_exceptions.md R247): the current operation is abandoned; bytes already handed to
the transport are not recalled. -/
def transportError (report : Nat) (s : State) : State :=
  recover { raise (.transportError report) s with
    txSegs := [], txPhase := .idle, txActive := false, txCont := .noChange, pbuf := [], fbuf := [] }

/-- Reset while running (70_reset_and_hazards.md R272): the effect of R270; the configuration is constant, and the
clock, the transport's queue and the coming events are the environment's (log entry 16, DESIGN CHOICE, unsafe). -/
def resetNow (s : State) : State :=
  { State.reset with
    config := s.config, now := s.now, tRef := s.now, txQueued := s.txQueued, pending := s.pending, draws := s.draws }

end Sys2Proof.Machine
end

