-- ==== Sys2Proof/Machine/Command.lean ====
section
/-! DEFINITION. The meanings of the command frames (43_dispatch.md, 41_frame_decoder.md R136). Each starts where the
fifth byte has been stamped and appended and runs to the end of the step: it accepts the frame (R135) and
dispatches it (R170). -/

namespace Sys2Proof.Machine

/-- IDLE (R172): no response, no drive-port call, no diagnostic. -/
def execIdle (_d : Drive) (_aux1 _aux2 : Byte) (s : State) : Result :=
  .next (backToAwaiting (acceptFrame s))

/-- FORMAT (R180): the image is re-initialised before the ACK; the final segment drains. -/
def execFormat (d : Drive) (_aux1 _aux2 : Byte) (s : State) : Result :=
  afterPort d (portFormat d.val (acceptFrame s)) fun buf s' => sendData buf false true s'

/-- FORMAT_MD (R181): not dispatched to any behaviour. -/
def execFormatMd (d : Drive) (_aux1 _aux2 : Byte) (s : State) : Result :=
  .next (unsupportedCommand Proto.cmdFormatMd (deviceIdOf d) s)

/-- POLL (R182): not dispatched. -/
def execPoll (d : Drive) (_aux1 _aux2 : Byte) (s : State) : Result :=
  .next (unsupportedCommand Proto.cmdPoll (deviceIdOf d) s)

/-- WRITE (R177). -/
def execWrite (d : Drive) (n : Sector) (s : State) : Result :=
  beginWrite d n s

/-- READ (R176): the ACK drains if READ_ACK_DRAIN, the data segment if READ_DATA_DRAIN. -/
def execRead (d : Drive) (n : Sector) (s : State) : Result :=
  afterPort d (portReadSector d.val n (acceptFrame s)) fun data s' =>
    sendData data s'.config.readAckDrain s'.config.readDataDrain s'

/-- STATUS (R175): the final segment drains. -/
def execStatus (d : Drive) (_aux1 _aux2 : Byte) (s : State) : Result :=
  afterPort d (portStatus d.val (acceptFrame s)) fun st s' => sendData st.toList false true s'

/-- WRITE_VERIFY (R178): "behaves identically to WRITE"; no verification read is made. -/
def execWriteVerify (d : Drive) (n : Sector) (s : State) : Result :=
  beginWrite d n s

/-- UNSUPPORTED (R183): dropped with a diagnostic, the slot is not looked up (R173). -/
def execUnsupported (d : Drive) (command _aux1 _aux2 : Byte) (s : State) : Result :=
  .next (unsupportedCommand command (deviceIdOf d) s)

/-- NOTMINE (R171): UnknownDrive, no drive-port call, nothing transmitted. -/
def execNotmine (deviceId _command _aux1 _aux2 : Byte) (s : State) : Result :=
  .next (backToAwaiting (raise (.unknownDrive (.device deviceId) .outOfRange) (acceptFrame s)))

/-- BADSUM (41_frame_decoder.md R136): no frame exists; FramingError, nothing transmitted. -/
def execBadsum (deviceId command aux1 aux2 checksum : Byte) (s : State) : Result :=
  .next (rejectFrame [deviceId, command, aux1, aux2, checksum] s)

/-- The meaning of the row a frame decodes to. The last six rows are no command frames, and the decoder of frames
yields none of them. -/
def runFrame (i : Instr) (s : State) : Result :=
  match i with
  | .idle d a1 a2 => execIdle d a1 a2 s
  | .format d a1 a2 => execFormat d a1 a2 s
  | .formatMd d a1 a2 => execFormatMd d a1 a2 s
  | .poll d a1 a2 => execPoll d a1 a2 s
  | .write d n => execWrite d n s
  | .read d n => execRead d n s
  | .status d a1 a2 => execStatus d a1 a2 s
  | .writeVerify d n => execWriteVerify d n s
  | .unsupported d c a1 a2 => execUnsupported d c a1 a2 s
  | .notmine dev c a1 a2 => execNotmine dev c a1 a2 s
  | .badsum dev c a1 a2 k => execBadsum dev c a1 a2 k s
  | .payload _ | .ack | .complete | .nak | .err | .dataBlock _ => .next s

end Sys2Proof.Machine
end

