-- ==== Sys2Proof/Machine/Payload.lean ====
section
/-! DEFINITION. The Frame Decoder (41_frame_decoder.md R130 to R136), the Sector-Write Receiver
(44_sector_write_receiver.md R200 to R207) and the meaning of PAYLOAD. -/

namespace Sys2Proof.Machine

/-- What received bytes come to: an instruction to run, or a step that is already done. -/
inductive Fetch where
  | run (i : Instr) (s : State)
  | done (s : State)
  deriving DecidableEq, Repr

/-- The gap rule (41_frame_decoder.md R132): a stale partial frame is discarded, strictly after `T_FRAME_GAP`. -/
def dropStaleFrame (gap : Time) (s : State) : State :=
  if s.fbuf ≠ [] ∧ s.config.tFrameGap < gap then discardFrame (.timeoutFrame s.fbuf) s else s

/-- The buffer after an append: wait below 5 bytes (R133), decode at 5 (R135, R136), discard above (R134). -/
def resolveFrame (s : State) : Fetch :=
  match s.fbuf with
  | [dev, c, a1, a2, k] => .run (decodeFrame dev c a1 a2 k) s
  | buf =>
    if buf.length < Proto.frameLen then .done s
    else .done (discardFrame (.framingError .length buf) s)

/-- `FrameDecoder(bytes, gap, t)` of R131 up to the dispatch of the frame it yields. -/
def fetchFrame (bytes : List Byte) (gap : Time) (s : State) : Fetch :=
  resolveFrame (appendFrame bytes (dropStaleFrame gap s))

/-- `FrameDecoder(bytes, gap, t)`, the whole procedure (R131). -/
def frameDecoder (bytes : List Byte) (gap : Time) (s : State) : Result :=
  match fetchFrame bytes gap s with
  | .run i s' => runFrame i s'
  | .done s' => .next s'

/-- The end of a payload whose write succeeded (44_sector_write_receiver.md R204). -/
def writeSucceeded (s : State) : State :=
  engineStart [ackSeg s.config false, completeSeg s.config s.config.writeDoneDrain] .toAwaitingCommand
    { s with pw := none }

/-- The end of a payload whose write failed (R205). -/
def writeFailed (d : Drive) (e : DriveError) (s : State) : State :=
  abandon (driveDiagnostic (.index d) e) s

/-- A complete payload (R203): handed to the Drive Registry in ProcessingData. -/
def persist (p : PendingWrite) (payload : List Byte) (s : State) : Result :=
  match portWriteSector p.drive.val p.sector payload { s with pbuf := [], pstate := .processingData } with
  | .answered (.ok _) s' => .next (writeSucceeded s')
  | .answered (.err e) s' => .next (writeFailed p.drive e s')
  | .refused r => .refused r

/-- Bytes beyond the expected length are dropped (R207). -/
def dropExcess (excess : List Byte) (s : State) : State :=
  if excess = [] then s else raise (.unexpectedData excess .awaitingSectorData) s

/-- Bytes for an armed receiver within the abort threshold (R202, R203, R207). -/
def accumulate (p : PendingWrite) (bytes : List Byte) (s : State) : Result :=
  if (s.pbuf ++ bytes).length < p.len then .next { s with pbuf := s.pbuf ++ bytes }
  else persist p ((s.pbuf ++ bytes).take p.len) (dropExcess ((s.pbuf ++ bytes).drop p.len) s)

/-- `SectorWriteReceiver(bytes, gap, t)`, the whole procedure (R201); after a late detection of the abort the bytes
go to the Frame Decoder (R206 (b)). -/
def sectorWriteReceiver (bytes : List Byte) (gap : Time) (s : State) : Result :=
  match s.pw with
  | none => .refused .noPendingWrite
  | some p => if s.config.tAbort < gap then frameDecoder bytes gap (abortPayload p s) else accumulate p bytes s

/-- PAYLOAD: bytes the wire host sends as payload, one chunk (41_frame_decoder.md R130). Armed, the block takes them
as payload (R201); in AwaitingCommand it parses them as frames (70_reset_and_hazards.md R282); in a Processing state
it drops them (R280). -/
def execPayload (bytes : List Byte) (s : State) : Result :=
  match s.pstate with
  | .awaitingSectorData => sectorWriteReceiver bytes (s.now - s.tRx) (stampConsumed s)
  | .awaitingCommand => frameDecoder bytes (s.now - s.tRx) (stampConsumed s)
  | .processingCommand => .next (unexpected bytes s)
  | .processingData => .next (unexpected bytes s)

/-- The routing of an `RxChunk` by the protocol state (41_frame_decoder.md R130): the fetch of the protocol engine. -/
def fetchReceived (bytes : List Byte) (s : State) : Fetch :=
  match s.pstate with
  | .awaitingSectorData => .run (.payload bytes) s
  | .awaitingCommand => fetchFrame bytes (s.now - s.tRx) (stampConsumed s)
  | .processingCommand => .done (unexpected bytes s)
  | .processingData => .done (unexpected bytes s)

/-- Whether a chunk is one an `RxChunk` event may carry (R130). -/
def chunkOk (bytes : List Byte) (s : State) : Bool :=
  decide (1 ≤ bytes.length) && decide (bytes.length ≤ s.config.rxChunkMax)

end Sys2Proof.Machine
end

