-- ==== Sys2Proof/Machine/Response.lean ====
section
/-! DEFINITION. The meanings of what the Response Transmitter sends (30_encoding.md R94, R95): the segment at the
head of the queue is handed to the transport when the Timing Gate releases it (45_response_transmitter.md R222). -/

namespace Sys2Proof.Machine

/-- ACK: the handshake byte 0x41. -/
def execAck (s : State) : Result := transmit [Proto.ack] s

/-- COMPLETE: the handshake byte 0x43. -/
def execComplete (s : State) : Result := transmit [Proto.complete] s

/-- NAK: reserved; no sequence of the engine holds it (R94, R104), so only a segment of an external requester can
be one, and the transmitter sends that like any other (R222; log entry 5, DEDUCED, safe). -/
def execNak (s : State) : Result := transmit [Proto.nak] s

/-- ERR: reserved, as NAK. -/
def execErr (s : State) : Result := transmit [Proto.err] s

/-- DATA_BLOCK: the data and its checksum, one segment. -/
def execDataBlock (data : List Byte) (s : State) : Result :=
  match dataBlockBytes data with
  | some bytes => transmit bytes s
  | none => .refused .checksumOfEmpty

/-- The fetch of the transmitter: the row of the head segment. -/
def fetchSegment (s : State) : Option Instr :=
  match s.txSegs with
  | [] => none
  | g :: _ => decodeSegment g.bytes

/-- A head segment that is no row of the table (an external requester's bytes, R220) is sent as it is; with no
segment there is nothing to send. -/
def transmitHead (s : State) : Result :=
  match s.txSegs with
  | [] => .refused .segmentNotWaiting
  | g :: _ => transmit g.bytes s

end Sys2Proof.Machine
end

