-- ==== Sys2Proof/Machine/Dispatch.lean ====
section
/-! DEFINITION. One arm per instruction. -/

namespace Sys2Proof.Machine

def exec (i : Instr) (s : State) : Host.Outcome State Fault Refusal :=
  match i with
  | .idle d a1 a2 => Sys2Proof.Machine.execIdle d a1 a2 s
  | .format d a1 a2 => Sys2Proof.Machine.execFormat d a1 a2 s
  | .formatMd d a1 a2 => Sys2Proof.Machine.execFormatMd d a1 a2 s
  | .poll d a1 a2 => Sys2Proof.Machine.execPoll d a1 a2 s
  | .write d n => Sys2Proof.Machine.execWrite d n s
  | .read d n => Sys2Proof.Machine.execRead d n s
  | .status d a1 a2 => Sys2Proof.Machine.execStatus d a1 a2 s
  | .writeVerify d n => Sys2Proof.Machine.execWriteVerify d n s
  | .unsupported d c a1 a2 => Sys2Proof.Machine.execUnsupported d c a1 a2 s
  | .notmine dev c a1 a2 => Sys2Proof.Machine.execNotmine dev c a1 a2 s
  | .badsum dev c a1 a2 k => Sys2Proof.Machine.execBadsum dev c a1 a2 k s
  | .payload data => Sys2Proof.Machine.execPayload data s
  | .ack => Sys2Proof.Machine.execAck s
  | .complete => Sys2Proof.Machine.execComplete s
  | .nak => Sys2Proof.Machine.execNak s
  | .err => Sys2Proof.Machine.execErr s
  | .dataBlock data => Sys2Proof.Machine.execDataBlock data s

end Sys2Proof.Machine
end

