-- ==== Sys2Proof/Machine/Events.lean ====
section
/-! DEFINITION. How the coming event is taken from the environment's list and run, and how a word of the opcode table is
placed so that the next step runs it. -/

namespace Sys2Proof.Machine

/-- Take an event off the list: the clock is at its instant (00_scope.md R13). -/
def takeEvent (e : TimedEvent) (rest : List TimedEvent) (s : State) : State :=
  { s with now := e.time, pending := rest }

/-- Run what the protocol engine has fetched. -/
def runFetch (f : Fetch) : Result :=
  match f with
  | .run i s => exec i s
  | .done s => .next s

/-- Run what the transmitter has at its head: the row it is, or an external requester's bytes as they are. -/
def runSegment (s : State) : Result :=
  match fetchSegment s with
  | some i => exec i s
  | none => transmitHead s

/-- One event, handled in one atomic step (60_exceptions.md R252, 00_scope.md R15). -/
def runEvent (e : Event) (s : State) : Result :=
  match e with
  | .rxChunk bytes => if chunkOk bytes s then runFetch (fetchReceived bytes s) else .refused .chunkLength
  | .abortTimeout => abortTimeout s
  | .deadline => runSegment s
  | .writeDone => .next (writeDone s)
  | .drainDone => drainDone s
  | .transportError report => .next (transportError report s)
  | .txStart k segs => if sequenceOk segs then .next (externalStart k segs s) else .refused .emptySequence
  | .bind i h => .next (bindSlot i h s)
  | .unbind i => .next (unbindSlot i s)
  | .flushed n => flush n s
  | .reset => .next (resetNow s)

/-- Put an event at the head of the environment's list, at the present instant. -/
def presentNow (e : Event) (s : State) : State :=
  { s with pending := ⟨s.now, e⟩ :: s.pending }

/-- A segment placed at the head of the transmitter's queue, released by the coming event. -/
def placeSegment (bytes : List Byte) (s : State) : State :=
  presentNow .deadline
    { s with txActive := true, txSegs := [⟨bytes, 0, false⟩], txPhase := .waitDelay, tRef := s.now }

/-- A payload byte for an armed receiver that expects two bytes of sector 1 of drive 0. -/
def placePayload (bytes : List Byte) (s : State) : State :=
  presentNow (.rxChunk bytes)
    { s with pstate := .awaitingSectorData, fbuf := [], pbuf := [], tRx := s.now, pw := some ⟨0, 1, 2⟩ }

/-- A command frame of which four bytes are in the frame buffer and the fifth is the coming event. -/
def placeFrame (bytes : List Byte) (s : State) : State :=
  presentNow (.rxChunk (bytes.drop 4))
    { s with pstate := .awaitingCommand, fbuf := bytes.take 4, tRx := s.now }

/-- Place a laid-out word where the machine fetches its next instruction (log entry 6, DESIGN CHOICE, safe). -/
def placeWord (layout : Format × List Byte) (s : State) : State :=
  match layout with
  | (.command, bytes) => placeFrame bytes s
  | (.payload, bytes) => placePayload bytes s
  | (.segment, bytes) => placeSegment bytes s

end Sys2Proof.Machine
end

