-- ==== Sys2Proof/Machine/Step.lean ====
section
/-! DEFINITION. One step: the coming event of the environment, handled whole (00_scope.md R15). -/

namespace Sys2Proof.Machine

/-- With no event to come the block waits (70_reset_and_hazards.md R271, R276). Instants never go back (00_scope.md
R13, 60_exceptions.md R253). -/
def step (s : State) : Host.Outcome State Fault Refusal :=
  match s.pending with
  | [] => .next s
  | e :: rest => if e.time < s.now then .refused .timeReversed else runEvent e.event (takeEvent e rest s)

/-- `s` with a word of the opcode table placed so that the next step runs exactly it (log entry 6, DESIGN CHOICE, safe). -/
def State.withFetchWord (s : State) (nbits w : Nat) : State :=
  placeWord (tableLayout nbits w) s

end Sys2Proof.Machine
end

