-- ==== Sys2Proof/Safety.lean ====
section
/-! DEFINITION. The terms claims are stated in: the invariant of 10_state.md section 8, quiescence, and what the
wire host can be sent. -/

namespace Sys2Proof.Machine

/-- What a segment of the engine's own sequences holds (30_encoding.md R90, 43_dispatch.md R186): ACK, COMPLETE, or
data followed by its checksum. -/
def engineBytes (b : List Byte) : Prop :=
  b = [Proto.ack] ∨ b = [Proto.complete] ∨ ∃ data, dataBlockBytes data = some b

/-- A well-formed event binds a well-formed handle. -/
def Event.wf : Event → Bool
  | .bind _ h => h.wf
  | _ => true

/-- Whether the protocol state is one of the two Processing states. -/
def PState.processing : PState → Bool
  | .processingCommand | .processingData => true
  | .awaitingCommand | .awaitingSectorData => false

/-- The invariant of the block between events (10_state.md R22, R24, R25, R28, R29, R40 to R45). -/
structure Inv (s : State) : Prop where
  /-- The configuration is one R9 allows. -/
  config : s.config.ok = true
  /-- R40: no lock, no segment. -/
  lock : s.txActive = false ↔ s.txSegs = []
  /-- R40: no lock, phase Idle. -/
  phase : s.txActive = false ↔ s.txPhase = .idle
  /-- R31: no sequence, no continuation. -/
  cont : s.txActive = false → s.txCont = .noChange
  /-- R41, R45: the engine's own sequence is in flight exactly in the Processing states. -/
  engine : s.pstate.processing = true ↔ s.txCont ≠ .noChange
  /-- R25: only a WRITE's ACK, sent in ProcessingCommand, arms the receiver. -/
  arming : s.txCont = .toAwaitingSectorData → s.pstate = .processingCommand
  /-- R25: when the pending-write register is set. -/
  pendingWrite : s.pw ≠ none ↔ (s.pstate = .awaitingSectorData ∨ s.txCont = .toAwaitingSectorData)
  /-- R25, R177: the length it holds. -/
  pendingLength : ∀ p, s.pw = some p → 1 ≤ p.len ∧ p.len ≤ s.config.sectorSizeMax
  /-- R44. -/
  frameShort : s.fbuf.length ≤ 4
  /-- R42, R43: the frame buffer is used in AwaitingCommand only. -/
  frameEmpty : s.pstate ≠ .awaitingCommand → s.fbuf = []
  /-- R42: the payload buffer is used in AwaitingSectorData only. -/
  payloadEmpty : s.pstate ≠ .awaitingSectorData → s.pbuf = []
  /-- R42: the payload is not complete. -/
  payloadShort : ∀ p, s.pw = some p → s.pbuf.length < p.len
  /-- R28, R219: a segment holds at least one byte. -/
  segments : ∀ g ∈ s.txSegs, g.bytes ≠ []
  /-- R90, R186: what the engine sends. -/
  engineSegments : s.txCont ≠ .noChange → ∀ g ∈ s.txSegs, engineBytes g.bytes
  /-- R23, R30: the two timestamps lie in the past. -/
  stamps : s.tRx ≤ s.now ∧ s.tRef ≤ s.now
  /-- R33: so do the transmissions, in order. -/
  traceOrder : s.txTrace.Pairwise (fun a b => a.time ≤ b.time) ∧ ∀ r ∈ s.txTrace, r.time ≤ s.now
  /-- R66: the images behind the slots are well formed, their sectors in canonical form. -/
  images : ∀ (d : Drive) (h : Handle), s.slots[d] = some h → h.wf = true
  /-- The environment binds well-formed images only. -/
  events : ∀ e ∈ s.pending, e.event.wf = true

/-- Quiescence (70_reset_and_hazards.md R276). -/
def quiescent (s : State) : Bool :=
  decide (s.pstate = .awaitingCommand) && !s.txActive && s.fbuf.isEmpty

/-- The bytes of the segments of the sequence in flight that have not been handed to the transport. -/
def owed (s : State) : List (List Byte) :=
  match s.txPhase with
  | .waitDelay => s.txSegs.map Segment.bytes
  | _ => (s.txSegs.drop 1).map Segment.bytes

/-- A state without its traces: what the block itself can depend on (10_state.md R33, R34, R35). -/
def forgetTraces (s : State) : State :=
  { s with txTrace := [], diag := [], driveTrace := [], replies := [] }

/-- A result with its state rewritten. -/
def mapResult (f : State → State) : Result → Result
  | .next s => .next (f s)
  | .fault r => .fault r
  | .refused r => .refused r

/-- A handle with its read-only flag rewritten (20_memory.md R66). -/
def Handle.setReadOnly (b : Bool) : Handle → Handle
  | .reference img => .reference { img with readOnly := b }
  | .external h => .external h

/-- A state in which every image, bound or about to be bound, has the given read-only flag. -/
def setReadOnly (b : Bool) (s : State) : State :=
  { s with
    slots := s.slots.map (Option.map (Handle.setReadOnly b))
    pending := s.pending.map fun e =>
      match e.event with
      | .bind i h => { e with event := .bind i (h.setReadOnly b) }
      | _ => e }

/-- The drive a command frame addresses (30_encoding.md R96). -/
def drive? : Instr → Option Drive
  | .idle d _ _ | .format d _ _ | .formatMd d _ _ | .poll d _ _ | .write d _ | .read d _ | .status d _ _
  | .writeVerify d _ | .unsupported d _ _ _ => some d
  | .notmine .. | .badsum .. | .payload _ | .ack | .complete | .nak | .err | .dataBlock _ => none

/-- The sector store is unchanged: an unbound slot is unbound, a reference image is the same image, and any other
handle is the same handle, has received calls that only ask, and holds the last write of every sector as before. (What
such a handle answers beyond that is free after every call, 93_implementation_defined.md U25.) -/
def sameStore (s t : State) : Prop :=
  ∀ d : Drive,
    (s.slots[d] = none → t.slots[d] = none) ∧
    (∀ img, s.slots[d] = some (.reference img) → t.slots[d] = some (.reference img)) ∧
    (∀ h, s.slots[d] = some (.external h) → ∃ h', t.slots[d] = some (.external h') ∧
      h'.id = h.id ∧ h'.geometry = h.geometry ∧ (∃ l, h'.calls = l ++ h.calls ∧ ∀ c ∈ l, asks c = true) ∧
      ∀ m : Nat, lastWrite h'.calls m = lastWrite h.calls m)

/-- The transitions of the protocol state, event by event: the table of 10_state.md R49, with reset
(70_reset_and_hazards.md R272) and the waiting step. The gap is that of the received chunk. -/
def transitionAllowed (s t : State) : Option Event → Prop
  | some (.rxChunk _) =>
    match s.pstate with
    | .awaitingCommand => t.pstate = .awaitingCommand ∨ t.pstate = .processingCommand
    | .awaitingSectorData =>
      if s.config.tAbort < t.now - s.tRx then t.pstate = .awaitingCommand ∨ t.pstate = .processingCommand
      else t.pstate = .awaitingSectorData ∨ t.pstate = .processingData ∨ t.pstate = .awaitingCommand
    | .processingCommand => t.pstate = .processingCommand
    | .processingData => t.pstate = .processingData
  | some .abortTimeout => s.pstate = .awaitingSectorData ∧ t.pstate = .awaitingCommand
  | some .writeDone | some .drainDone =>
    t.pstate = s.pstate ∨
      (t.txActive = false ∧ s.txCont = .toAwaitingCommand ∧ t.pstate = .awaitingCommand) ∨
      (t.txActive = false ∧ s.txCont = .toAwaitingSectorData ∧ t.pstate = .awaitingSectorData)
  | some (.transportError _) => t.pstate = .awaitingCommand
  | some .reset => t.pstate = .awaitingCommand
  | some .deadline | some (.txStart ..) | some (.bind ..) | some (.unbind _) | some (.flushed _) | none =>
    t.pstate = s.pstate

end Sys2Proof.Machine
end

