-- ==== Sys2Proof/Certificates/Slice0/Obligations.lean ====
section
/-! DEFINITION. The statements for the provers. Where a statement rests on a point the spec marks as its own decision
or derivation, or on the model's log, its docstring says so and names it. -/

open Sys2Proof Sys2Proof.Machine

/-! ### Encodings -/

/-- Decode and encode agree: no operand bit of any row is dropped (30_encoding.md R91, R94 to R97, R99). -/
def Obligations.DecodeInvertsEncode : Prop :=
  ∀ i : Instr, i.wellFormed = true → decode i.format? (encode i) = .ok i

/-- The other direction for command frames: any five bytes are exactly one row of the table, which is well formed and
spells them (30_encoding.md R91, R99, R100). -/
def Obligations.EveryFiveBytesAreOneRow : Prop :=
  ∀ dev c a1 a2 k : Byte,
    (decodeFrame dev c a1 a2 k).wellFormed = true ∧
    (decodeFrame dev c a1 a2 k).format? = .command ∧
    encode (decodeFrame dev c a1 a2 k) = [dev, c, a1, a2, k]

/-- The order of the tests on five bytes, and the row each command byte selects with the drive index
`(deviceId & 0xF) − 1` and the sector `aux2 << 8 | aux1`. The order (decision D15) and the reading of the drive
index (decision D32) are the spec's own. -/
def Obligations.FrameTestsInOrder : Prop :=
  ∀ dev c a1 a2 k : Byte,
    (checksum [dev, c, a1, a2] ≠ some k → decodeFrame dev c a1 a2 k = .badsum dev c a1 a2 k) ∧
    (checksum [dev, c, a1, a2] = some k → (dev < 0x31 ∨ 0x38 < dev) →
      decodeFrame dev c a1 a2 k = .notmine dev c a1 a2) ∧
    (checksum [dev, c, a1, a2] = some k → 0x31 ≤ dev → dev ≤ 0x38 →
      ∀ (d : Drive) (n : Sector), d.val = (dev &&& 0x0F).toNat - 1 → n.toNat = 256 * a2.toNat + a1.toNat →
        (c = 0x00 → decodeFrame dev c a1 a2 k = .idle d a1 a2) ∧
        (c = 0x21 → decodeFrame dev c a1 a2 k = .format d a1 a2) ∧
        (c = 0x22 → decodeFrame dev c a1 a2 k = .formatMd d a1 a2) ∧
        (c = 0x3F → decodeFrame dev c a1 a2 k = .poll d a1 a2) ∧
        (c = 0x50 → decodeFrame dev c a1 a2 k = .write d n) ∧
        (c = 0x52 → decodeFrame dev c a1 a2 k = .read d n) ∧
        (c = 0x53 → decodeFrame dev c a1 a2 k = .status d a1 a2) ∧
        (c = 0x57 → decodeFrame dev c a1 a2 k = .writeVerify d n) ∧
        (c ∉ [0x00, 0x21, 0x22, 0x3F, 0x50, 0x52, 0x53, 0x57] →
          decodeFrame dev c a1 a2 k = .unsupported d c a1 a2))

/-- A sanity statement: words of 95_test_vectors.md (EN1, EN6, EN14, EN15, EN17 to EN21, EN24, EN28), of FD2, and of
the response formats (30_encoding.md R94, CK24) decode to what they stand for. -/
def Obligations.WordsOfTheSpecDecode : Prop :=
  decode .command [0x31, 0x53, 0x00, 0x00, 0x84] = .ok (.status 0 0 0) ∧
  decode .command [0x31, 0x52, 0xD0, 0x02, 0x56] = .ok (.read 0 720) ∧
  decode .command [0x31, 0x50, 0x69, 0x01, 0xEB] = .ok (.write 0 361) ∧
  decode .command [0x38, 0x57, 0xD0, 0x02, 0x62] = .ok (.writeVerify 7 720) ∧
  decode .command [0x32, 0x21, 0x00, 0x00, 0x53] = .ok (.format 1 0 0) ∧
  decode .command [0x31, 0x22, 0x00, 0x00, 0x53] = .ok (.formatMd 0 0 0) ∧
  decode .command [0x31, 0x3F, 0x00, 0x00, 0x70] = .ok (.poll 0 0 0) ∧
  decode .command [0x31, 0x00, 0x00, 0x00, 0x31] = .ok (.idle 0 0 0) ∧
  decode .command [0x31, 0x4E, 0x00, 0x00, 0x7F] = .ok (.unsupported 0 0x4E 0 0) ∧
  decode .command [0x30, 0x53, 0x00, 0x00, 0x83] = .ok (.notmine 0x30 0x53 0 0) ∧
  decode .command [0x00, 0x00, 0x00, 0x00, 0x00] = .ok (.notmine 0 0 0 0) ∧
  decode .command [0x31, 0x53, 0x00, 0x00, 0x85] = .ok (.badsum 0x31 0x53 0 0 0x85) ∧
  decode .payload [0xDE, 0xAD] = .ok (.payload [0xDE, 0xAD]) ∧
  decode .segment [0x41] = .ok .ack ∧
  decode .segment [0x43] = .ok .complete ∧
  decode .segment [0x4E] = .ok .nak ∧
  decode .segment [0x45] = .ok .err ∧
  decode .segment [0x10, 0xFF, 0xE0, 0x00, 0xF0] = .ok (.dataBlock [0x10, 0xFF, 0xE0, 0x00])

/-! ### The Checksum Unit -/

/-- 40_checksum.md R120: the checksum starts with the first byte, and each further byte is added and the carry folded
back in, with shift, mask and sum on unbounded naturals. -/
def Obligations.ChecksumIsTheFoldedSum : Prop :=
  (∀ b : Byte, checksum [b] = some b) ∧
  ∀ (l : List Byte) (b c : Byte), checksum l = some c →
    ∃ r : Byte, checksum (l ++ [b]) = some r ∧
      r.toNat = ((c.toNat + b.toNat) >>> 8) + ((c.toNat + b.toNat) &&& 0xFF)

/-- The closed form the spec derives in 40_checksum.md section 1: 0 for the sum 0, else `((S − 1) mod 255) + 1`. -/
def Obligations.ChecksumClosedForm : Prop :=
  ∀ (l : List Byte) (c : Byte), checksum l = some c →
    c.toNat = if (l.map BitVec.toNat).sum = 0 then 0 else ((l.map BitVec.toNat).sum - 1) % 255 + 1

/-! ### Reset -/

/-- The state after reset (10_state.md section 9, a decision of the spec, D21). The configuration's OPEN parameters
are free (log entry 7), and `t_rx`, which the spec leaves unspecified, is not named here. -/
def Obligations.ResetLeavesAnIdleBlock : Prop :=
  State.reset.pstate = .awaitingCommand ∧ State.reset.fbuf = [] ∧ State.reset.pbuf = [] ∧ State.reset.pw = none ∧
  State.reset.txActive = false ∧ State.reset.txSegs = [] ∧ State.reset.txPhase = .idle ∧
  State.reset.txCont = .noChange ∧ State.reset.tRef = State.reset.now ∧
  (∀ d : Drive, State.reset.slots[d] = none) ∧
  State.reset.txTrace = [] ∧ State.reset.diag = [] ∧ State.reset.driveTrace = [] ∧ State.reset.txQueued = 0 ∧
  State.reset.config.tAck = 1000 ∧ State.reset.config.tComplete = 200 ∧ State.reset.config.tData = 400 ∧
  State.reset.config.tFrameGap = 10000000 ∧ State.reset.config.tAbort = 1000000000 ∧
  State.reset.config.readAckDrain = true ∧ State.reset.config.readDataDrain = false ∧
  State.reset.config.writeDoneDrain = false ∧ State.reset.config.rxChunkMax = 1

/-- The invariant of 10_state.md section 8 holds after reset. -/
def Obligations.ResetMeetsTheInvariant : Prop :=
  Inv State.reset

/-! ### The step -/

/-- The invariant of 10_state.md section 8, with the canonical form of the sector store, is kept by every step from
every state that meets it, whatever event comes. The spec derives these properties; the canonical form is the
model's (log entry 10). -/
def Obligations.EveryStepKeepsTheInvariant : Prop :=
  ∀ s t : State, Inv s → step s = .next t → Inv t

/-- A received chunk that completes five bytes runs the row they decode to, on the state with the event taken, the
two timestamps stamped and the bytes appended. -/
def Obligations.StepRunsTheDecodedFrame : Prop :=
  ∀ (s : State) (t : Time) (bytes : List Byte) (rest : List TimedEvent) (i : Instr),
    s.pending = ⟨t, .rxChunk bytes⟩ :: rest → s.now ≤ t →
    1 ≤ bytes.length → bytes.length ≤ s.config.rxChunkMax →
    s.pstate = .awaitingCommand → (s.fbuf = [] ∨ t - s.tRx ≤ s.config.tFrameGap) →
    decode .command (s.fbuf ++ bytes) = .ok i →
    step s = exec i { s with now := t, pending := rest, tRx := t, tRef := t, fbuf := s.fbuf ++ bytes }

/-- A chunk received by an armed receiver is the instruction PAYLOAD, run on the state with the event taken. That one
received chunk is one PAYLOAD instruction is the model's reading (log entry 20): the write payload of 30_encoding.md R90
is `pw.len` bytes, the sequence of its chunks. -/
def Obligations.StepRunsThePayload : Prop :=
  ∀ (s : State) (t : Time) (bytes : List Byte) (rest : List TimedEvent) (i : Instr),
    s.pending = ⟨t, .rxChunk bytes⟩ :: rest → s.now ≤ t →
    1 ≤ bytes.length → bytes.length ≤ s.config.rxChunkMax →
    s.pstate = .awaitingSectorData → decode .payload bytes = .ok i →
    i = .payload bytes ∧ step s = exec i { s with now := t, pending := rest }

/-- The release of the head segment runs the row its bytes decode to, on the state with the event taken. A head segment
that is no row of the table, which only an external requester can have placed, is sent as it is when its deadline is
reached. -/
def Obligations.StepRunsTheHeadSegment : Prop :=
  ∀ (s : State) (t : Time) (g : Segment) (segs : List Segment) (rest : List TimedEvent),
    s.pending = ⟨t, .deadline⟩ :: rest → s.now ≤ t → s.txSegs = g :: segs →
    (∀ i : Instr, decode .segment g.bytes = .ok i → step s = exec i { s with now := t, pending := rest }) ∧
    (decode .segment g.bytes = .error .notAResponse → s.txPhase = .waitDelay →
      s.tRef + g.delayMicros * 1000 ≤ t →
      step s = .next { s with
        now := t, pending := rest, txPhase := .waitWrite, txTrace := s.txTrace ++ [⟨g.bytes, t⟩],
        txQueued := s.txQueued + g.bytes.length })

/-- Time never goes back, the configuration never changes, and exactly the coming event is taken (00_scope.md R13,
10_state.md R36, 60_exceptions.md R253). That the block takes a step that changes nothing while no event is to come is
the model's choice (log entry 2), as is the list of coming events itself (log entry 1). -/
def Obligations.EveryStepTakesOneEvent : Prop :=
  ∀ s t : State, step s = .next t →
    s.now ≤ t.now ∧ t.config = s.config ∧
    ((s.pending = [] ∧ t = s) ∨ ∃ e, s.pending = e :: t.pending ∧ t.now = e.time)

/-- The traces are append-only (10_state.md R33, R34, R35): each step but a reset, which empties them (log entry 16),
keeps what they hold, hands over at most one segment, and stamps what it adds with its instant. -/
def Obligations.TracesOnlyGrow : Prop :=
  ∀ s t : State, step s = .next t → (∀ e rest, s.pending = e :: rest → e.event ≠ .reset) →
    (t.txTrace = s.txTrace ∨ ∃ b, t.txTrace = s.txTrace ++ [⟨b, t.now⟩]) ∧
    (∃ l, t.diag = s.diag ++ l ∧ ∀ r ∈ l, r.time = t.now) ∧
    (∃ l, t.driveTrace = s.driveTrace ++ l ∧ l.length ≤ 1)

/-- "No rule reads" the traces: two states that differ only in them step to states that differ only in them. -/
def Obligations.NoRuleReadsTheTraces : Prop :=
  ∀ s s' : State, forgetTraces s = forgetTraces s' →
    mapResult forgetTraces (step s) = mapResult forgetTraces (step s')

/-- The read-only flag of an image is no protection: no step depends on it (20_memory.md R61, R75). -/
def Obligations.NoRuleReadsTheReadOnlyFlag : Prop :=
  ∀ (s : State) (b : Bool),
    mapResult (setReadOnly b) (step (setReadOnly b s)) = mapResult (setReadOnly b) (step s)

/-- The complete list of transitions of the protocol state, event by event, from every state of the invariant (the
table the spec derives in 10_state.md section 11). -/
def Obligations.ProtocolStateTransitions : Prop :=
  ∀ s t : State, Inv s → step s = .next t → transitionAllowed s t (s.pending.head?.map TimedEvent.event)

/-! ### The Frame Decoder -/

/-- 41_frame_decoder.md R133: an incomplete frame waits; the step appends and does nothing else but stamp `t_rx` and
`t_ref` (R130; decisions D5, D10 of the spec). -/
def Obligations.IncompleteFrameWaits : Prop :=
  ∀ (s : State) (t : Time) (bytes : List Byte) (rest : List TimedEvent),
    s.pending = ⟨t, .rxChunk bytes⟩ :: rest → s.now ≤ t →
    1 ≤ bytes.length → bytes.length ≤ s.config.rxChunkMax →
    s.pstate = .awaitingCommand → (s.fbuf = [] ∨ t - s.tRx ≤ s.config.tFrameGap) →
    (s.fbuf ++ bytes).length < 5 →
    step s = .next { s with now := t, pending := rest, tRx := t, tRef := t, fbuf := s.fbuf ++ bytes }

/-- What the Frame Decoder throws away: a partial frame older than T_FRAME_GAP (strictly; decisions D5, D34 of the
spec), after which the new bytes are taken as on an empty buffer, however many they are (the first clause; the second
says it out for fewer than five); and an over-length, the whole buffer with the new chunk, of which the first five bytes
are not tried (decision D4). The order of the diagnostics is derived in 60_exceptions.md section 4. -/
def Obligations.OldAndLongFramesAreDiscarded : Prop :=
  ∀ (s : State) (t : Time) (bytes : List Byte) (rest : List TimedEvent),
    s.pending = ⟨t, .rxChunk bytes⟩ :: rest → s.now ≤ t →
    1 ≤ bytes.length → bytes.length ≤ s.config.rxChunkMax → s.pstate = .awaitingCommand →
    (s.fbuf ≠ [] → s.config.tFrameGap < t - s.tRx →
      step s = step { s with fbuf := [], diag := s.diag ++ [⟨.timeoutFrame s.fbuf, t⟩] }) ∧
    (s.fbuf ≠ [] → s.config.tFrameGap < t - s.tRx → bytes.length < 5 →
      step s = .next { s with
        now := t, pending := rest, tRx := t, tRef := t, fbuf := bytes,
        diag := s.diag ++ [⟨.timeoutFrame s.fbuf, t⟩] }) ∧
    ((s.fbuf = [] ∨ t - s.tRx ≤ s.config.tFrameGap) → 5 < (s.fbuf ++ bytes).length →
      step s = .next { s with
        now := t, pending := rest, tRx := t, tRef := t, fbuf := [],
        diag := s.diag ++ [⟨.framingError .length (s.fbuf ++ bytes), t⟩] })

/-- Bytes received in a Processing state are dropped at once (decision D9 of the spec): `t_rx` is stamped, `t_ref` and
the sequence in flight are not touched. -/
def Obligations.UnexpectedDataIsDropped : Prop :=
  ∀ (s : State) (t : Time) (bytes : List Byte) (rest : List TimedEvent),
    s.pending = ⟨t, .rxChunk bytes⟩ :: rest → s.now ≤ t →
    1 ≤ bytes.length → bytes.length ≤ s.config.rxChunkMax →
    (s.pstate = .processingCommand ∨ s.pstate = .processingData) →
    step s = .next { s with
      now := t, pending := rest, tRx := t, diag := s.diag ++ [⟨.unexpectedData bytes s.pstate, t⟩] }

/-! ### Command frames that send nothing -/

/-- IDLE: the frame is consumed and nothing else happens; that it raises no diagnostic is decision D14 of the spec. -/
def Obligations.IdleSendsNothing : Prop :=
  ∀ (s : State) (d : Drive) (a1 a2 : Byte),
    exec (.idle d a1 a2) s = .next { s with fbuf := [], pstate := .awaitingCommand }

/-- 43_dispatch.md R173, R181, R182, R183: the command bytes 0x22 and 0x3F and every unlisted one, in a valid frame for
an honoured device, are dropped with an UnsupportedCommand diagnostic; the slot is not looked up, nothing is
transmitted, AwaitingCommand. -/
def Obligations.UndispatchedCommandsAreDropped : Prop :=
  ∀ (s : State) (d : Drive) (c a1 a2 k : Byte),
    checksum [0x31 + BitVec.ofNat 8 d.val, c, a1, a2] = some k →
    (c = 0x22 →
      decode .command [0x31 + BitVec.ofNat 8 d.val, c, a1, a2, k] = .ok (.formatMd d a1 a2) ∧
      exec (.formatMd d a1 a2) s = .next { s with
        fbuf := [], pstate := .awaitingCommand,
        diag := s.diag ++ [⟨.unsupportedCommand 0x22 (0x31 + BitVec.ofNat 8 d.val), s.now⟩] }) ∧
    (c = 0x3F →
      decode .command [0x31 + BitVec.ofNat 8 d.val, c, a1, a2, k] = .ok (.poll d a1 a2) ∧
      exec (.poll d a1 a2) s = .next { s with
        fbuf := [], pstate := .awaitingCommand,
        diag := s.diag ++ [⟨.unsupportedCommand 0x3F (0x31 + BitVec.ofNat 8 d.val), s.now⟩] }) ∧
    (c ∉ [0x00, 0x21, 0x22, 0x3F, 0x50, 0x52, 0x53, 0x57] →
      decode .command [0x31 + BitVec.ofNat 8 d.val, c, a1, a2, k] = .ok (.unsupported d c a1 a2) ∧
      exec (.unsupported d c a1 a2) s = .next { s with
        fbuf := [], pstate := .awaitingCommand,
        diag := s.diag ++ [⟨.unsupportedCommand c (0x31 + BitVec.ofNat 8 d.val), s.now⟩] })

/-- 43_dispatch.md R171: a device id that is not honoured raises UnknownDrive, whatever the command byte, with no
drive-port call and nothing transmitted. -/
def Obligations.ForeignDeviceIsIgnored : Prop :=
  ∀ (s : State) (dev c a1 a2 k : Byte), (dev < 0x31 ∨ 0x38 < dev) → checksum [dev, c, a1, a2] = some k →
    decode .command [dev, c, a1, a2, k] = .ok (.notmine dev c a1 a2) ∧
    exec (.notmine dev c a1 a2) s = .next { s with
      fbuf := [], pstate := .awaitingCommand,
      diag := s.diag ++ [⟨.unknownDrive (.device dev) .outOfRange, s.now⟩] }

/-- 41_frame_decoder.md R136: five bytes with a bad checksum are discarded together with a FramingError; nothing is
transmitted, no drive-port call is made, the protocol state stays. -/
def Obligations.BadChecksumIsDiscarded : Prop :=
  ∀ (s : State) (dev c a1 a2 k : Byte), checksum [dev, c, a1, a2] ≠ some k →
    decode .command [dev, c, a1, a2, k] = .ok (.badsum dev c a1 a2 k) ∧
    exec (.badsum dev c a1 a2 k) s = .next { s with
      fbuf := [], diag := s.diag ++ [⟨.framingError .checksum [dev, c, a1, a2, k], s.now⟩] }

/-! ### Command frames that answer -/

/-- 43_dispatch.md R175: STATUS of a bound drive starts ACK, COMPLETE, the four status bytes with their checksum, the
final segment draining, the state becoming AwaitingCommand at its end; of an unbound drive it is aborted in silence.
Everything the instruction writes is in the equations. The cut into segments and their delays are decision D11 of the
spec (R184), the recovery of an unbound slot decision D16 (R174). -/
def Obligations.StatusAnswers : Prop :=
  ∀ (s : State) (d : Drive) (a1 a2 : Byte),
    (s.slots[d] = none →
      exec (.status d a1 a2) s = .next { s with
        fbuf := [], pstate := .awaitingCommand, pw := none,
        driveTrace := s.driveTrace ++ [⟨.status (d.val : Int), .err .noDrive⟩],
        diag := s.diag ++ [⟨.unknownDrive (.device (0x31 + BitVec.ofNat 8 d.val)) .slotUnbound, s.now⟩] }) ∧
    ∀ (h h' : Handle) (st : Vector Byte 4),
      s.slots[d] = some h → h.getStatusBytes = (st, h') → s.txActive = false →
      ∃ c, checksum st.toList = some c ∧
        exec (.status d a1 a2) s = .next { s with
          fbuf := [], pstate := .processingCommand, slots := s.slots.set d (some h'),
          driveTrace := s.driveTrace ++ [⟨.status (d.val : Int), .ok (.bytes st.toList)⟩],
          txActive := true, txPhase := .waitDelay, txCont := .toAwaitingCommand,
          txSegs := [⟨[0x41], s.config.tAck, false⟩, ⟨[0x43], s.config.tComplete, false⟩,
            ⟨st.toList ++ [c], s.config.tData, true⟩] }

/-- READ of a sector the bound handle returns: ACK (draining if READ_ACK_DRAIN), COMPLETE, the sector with its
checksum; the drains and the cut into segments are decisions D11, D12 of the spec. -/
def Obligations.ReadAnswers : Prop :=
  ∀ (s : State) (d : Drive) (n : Sector) (h h' : Handle) (data : List Byte),
    s.slots[d] = some h → h.getSector s.config.sectorSizeMax n.toNat = (.ok data, h') → data ≠ [] →
    s.txActive = false →
    ∃ c, checksum data = some c ∧
      exec (.read d n) s = .next { s with
        fbuf := [], pstate := .processingCommand, slots := s.slots.set d (some h'),
        driveTrace := s.driveTrace ++ [⟨.readSector (d.val : Int) n, .ok (.bytes data)⟩],
        txActive := true, txPhase := .waitDelay, txCont := .toAwaitingCommand,
        txSegs := [⟨[0x41], s.config.tAck, s.config.readAckDrain⟩, ⟨[0x43], s.config.tComplete, false⟩,
          ⟨data ++ [c], s.config.tData, s.config.readDataDrain⟩] }

/-- 43_dispatch.md R178 and the first stage of R177: WRITE_VERIFY is WRITE, in every state; both ask for the sector's
size, hold the pending write and start the ACK alone, whose end arms the receiver. The one pending-write register is
decision D21 of the spec, the segment with its delay decision D11 (R184). -/
def Obligations.WriteIsAcknowledged : Prop :=
  ∀ (s : State) (d : Drive) (n : Sector),
    exec (.writeVerify d n) s = exec (.write d n) s ∧
    ∀ (h h' : Handle) (len : Nat) (i : Instr),
      (i = .write d n ∨ i = .writeVerify d n) →
      s.slots[d] = some h → h.getSectorSize s.config.sectorSizeMax (some n.toNat) = (len, h') →
      1 ≤ len → len ≤ s.config.sectorSizeMax → s.txActive = false →
      exec i s = .next { s with
        fbuf := [], pstate := .processingCommand, slots := s.slots.set d (some h'), pw := some ⟨d, n, len⟩,
        driveTrace := s.driveTrace ++ [⟨.sectorSize (d.val : Int) (some n), .ok (.number len)⟩],
        txActive := true, txPhase := .waitDelay, txCont := .toAwaitingSectorData,
        txSegs := [⟨[0x41], s.config.tAck, false⟩] }

/-- FORMAT of a bound drive: the handle is formatted at its own size and count before the ACK, and the response is the
fill of the size it then reports, whose checksum byte is another 0xFF; the size without a sector argument is decision
D18 of the spec. -/
def Obligations.FormatAnswersABoundDrive : Prop :=
  ∀ (s : State) (d : Drive) (a1 a2 : Byte) (h h1 h2 h3 h4 : Handle) (size count size' : Nat),
    s.slots[d] = some h → h.getSectorSize s.config.sectorSizeMax none = (size, h1) →
    h1.getSectorCount = (count, h2) → h2.format size count = (.ok (), h3) →
    h3.getSectorSize s.config.sectorSizeMax none = (size', h4) →
    1 ≤ size → size ≤ s.config.sectorSizeMax → 1 ≤ size' → size' ≤ s.config.sectorSizeMax → s.txActive = false →
    exec (.format d a1 a2) s = .next { s with
      fbuf := [], pstate := .processingCommand, slots := s.slots.set d (some h4),
      driveTrace := s.driveTrace ++ [⟨.format (d.val : Int), .ok (.bytes (List.replicate size' 0xFF))⟩],
      txActive := true, txPhase := .waitDelay, txCont := .toAwaitingCommand,
      txSegs := [⟨[0x41], s.config.tAck, false⟩, ⟨[0x43], s.config.tComplete, false⟩,
        ⟨List.replicate (size' + 1) 0xFF, s.config.tData, true⟩] }

/-- FORMAT of an unbound slot is no error (decision D17 of the spec): a fresh default image is bound, of the default
geometry, each sector of which is read as fill or refused, and the response has DEFAULT_SECTOR_SIZE bytes of fill. What
the image is otherwise is free (log entry 13). -/
def Obligations.FormatBindsAFreshImage : Prop :=
  ∀ (s : State) (d : Drive) (a1 a2 : Byte),
    s.slots[d] = none → 1 ≤ s.config.defaultSectorSize → s.txActive = false →
    exec (.format d a1 a2) s = .next { s with
      fbuf := [], pstate := .processingCommand, draws := s.draws + 1,
      slots := s.slots.set d (some (freshImage s.config s.draws)),
      driveTrace := s.driveTrace ++
        [⟨.format (d.val : Int), .ok (.bytes (List.replicate s.config.defaultSectorSize 0xFF))⟩],
      txActive := true, txPhase := .waitDelay, txCont := .toAwaitingCommand,
      txSegs := [⟨[0x41], s.config.tAck, false⟩, ⟨[0x43], s.config.tComplete, false⟩,
        ⟨List.replicate (s.config.defaultSectorSize + 1) 0xFF, s.config.tData, true⟩] } ∧
    ((freshImage s.config s.draws).getSectorSize s.config.sectorSizeMax none).1 = s.config.defaultSectorSize ∧
    (freshImage s.config s.draws).getSectorCount.1 = s.config.defaultSectorCount ∧
    ∀ n : Nat, ((freshImage s.config s.draws).getSector s.config.sectorSizeMax n).1 =
        .ok (List.replicate ((freshImage s.config s.draws).getSectorSize s.config.sectorSizeMax (some n)).1 0xFF) ∨
      ∃ x, ((freshImage s.config s.draws).getSector s.config.sectorSizeMax n).1 = .err (.handleError x)

/-- STATUS, READ, WRITE and WRITE_VERIFY of an unbound slot are aborted in silence: UnknownDrive, nothing transmitted,
AwaitingCommand (the property of D00 quoted in 43_dispatch.md section 6; the recovery is R174's, decision D16). -/
def Obligations.UnboundSlotIsSilent : Prop :=
  ∀ (s : State) (d : Drive) (n : Sector) (a1 a2 : Byte) (i : Instr) (op : DriveOp), s.slots[d] = none →
    ((i = .status d a1 a2 ∧ op = .status (d.val : Int)) ∨
     (i = .read d n ∧ op = .readSector (d.val : Int) n) ∨
     (i = .write d n ∧ op = .sectorSize (d.val : Int) (some n)) ∨
     (i = .writeVerify d n ∧ op = .sectorSize (d.val : Int) (some n))) →
    exec i s = .next { s with
      fbuf := [], pstate := .awaitingCommand, pw := none,
      driveTrace := s.driveTrace ++ [⟨op, .err .noDrive⟩],
      diag := s.diag ++ [⟨.unknownDrive (.device (0x31 + BitVec.ofNat 8 d.val)) .slotUnbound, s.now⟩] }

/-- A handle that refuses the sector number of a READ ends the command in silence with DriveFault (decision D16 of the
spec). -/
def Obligations.HandleRefusalIsSilent : Prop :=
  ∀ (s : State) (d : Drive) (n : Sector) (h h' : Handle) (x : HandleError), s.slots[d] = some h →
    h.getSector s.config.sectorSizeMax n.toNat = (.err (.handleError x), h') →
    exec (.read d n) s = .next { s with
      fbuf := [], pstate := .awaitingCommand, pw := none, slots := s.slots.set d (some h'),
      driveTrace := s.driveTrace ++ [⟨.readSector (d.val : Int) n, .err (.handleError x)⟩],
      diag := s.diag ++ [⟨.driveFault (.handleError x), s.now⟩] }

/-- While an external requester holds the lock the engine's response is refused: the sequence in flight is untouched
and the command is dropped, what its drive-port call did staying done, a FORMAT's fresh image with it (43_dispatch.md
R185, decision D29 of the spec). -/
def Obligations.HeldLockDropsTheResponse : Prop :=
  (∀ (s : State) (d : Drive) (a1 a2 : Byte), s.txActive = true → s.slots[d] = none → 1 ≤ s.config.defaultSectorSize →
    exec (.format d a1 a2) s = .next { s with
      fbuf := [], pstate := .awaitingCommand, pw := none, draws := s.draws + 1,
      slots := s.slots.set d (some (freshImage s.config s.draws)),
      driveTrace := s.driveTrace ++
        [⟨.format (d.val : Int), .ok (.bytes (List.replicate s.config.defaultSectorSize 0xFF))⟩],
      diag := s.diag ++ [⟨.concurrentWriteViolation .engine, s.now⟩] }) ∧
  ∀ (s : State) (d : Drive) (a1 a2 : Byte) (n : Sector) (h h' : Handle), s.txActive = true → s.slots[d] = some h →
    (∀ st, h.getStatusBytes = (st, h') →
      exec (.status d a1 a2) s = .next { s with
        fbuf := [], pstate := .awaitingCommand, pw := none, slots := s.slots.set d (some h'),
        driveTrace := s.driveTrace ++ [⟨.status (d.val : Int), .ok (.bytes st.toList)⟩],
        diag := s.diag ++ [⟨.concurrentWriteViolation .engine, s.now⟩] }) ∧
    (∀ data, h.getSector s.config.sectorSizeMax n.toNat = (.ok data, h') → data ≠ [] →
      exec (.read d n) s = .next { s with
        fbuf := [], pstate := .awaitingCommand, pw := none, slots := s.slots.set d (some h'),
        driveTrace := s.driveTrace ++ [⟨.readSector (d.val : Int) n, .ok (.bytes data)⟩],
        diag := s.diag ++ [⟨.concurrentWriteViolation .engine, s.now⟩] }) ∧
    (∀ len i, (i = .write d n ∨ i = .writeVerify d n) →
      h.getSectorSize s.config.sectorSizeMax (some n.toNat) = (len, h') → 1 ≤ len → len ≤ s.config.sectorSizeMax →
      exec i s = .next { s with
        fbuf := [], pstate := .awaitingCommand, pw := none, slots := s.slots.set d (some h'),
        driveTrace := s.driveTrace ++ [⟨.sectorSize (d.val : Int) (some n), .ok (.number len)⟩],
        diag := s.diag ++ [⟨.concurrentWriteViolation .engine, s.now⟩] }) ∧
    (∀ h1 h2 h3 size count size', h.getSectorSize s.config.sectorSizeMax none = (size, h1) →
      h1.getSectorCount = (count, h2) → h2.format size count = (.ok (), h3) →
      h3.getSectorSize s.config.sectorSizeMax none = (size', h') →
      1 ≤ size → size ≤ s.config.sectorSizeMax → 1 ≤ size' → size' ≤ s.config.sectorSizeMax →
      exec (.format d a1 a2) s = .next { s with
        fbuf := [], pstate := .awaitingCommand, pw := none, slots := s.slots.set d (some h'),
        driveTrace := s.driveTrace ++ [⟨.format (d.val : Int), .ok (.bytes (List.replicate size' 0xFF))⟩],
        diag := s.diag ++ [⟨.concurrentWriteViolation .engine, s.now⟩] }) ∧
    (∀ bytes len size h1, s.pstate = .awaitingSectorData → s.pw = some ⟨d, n, len⟩ →
      s.now - s.tRx ≤ s.config.tAbort → (s.pbuf ++ bytes).length = len →
      h.getSectorSize s.config.sectorSizeMax (some n.toNat) = (size, h1) →
      1 ≤ size → size ≤ s.config.sectorSizeMax →
      h1.putSector n.toNat ((s.pbuf ++ bytes).take size) size = (.ok (), h') →
      exec (.payload bytes) s = .next { s with
        tRx := s.now, tRef := s.now, pbuf := [], pw := none, pstate := .awaitingCommand,
        slots := s.slots.set d (some h'),
        driveTrace := s.driveTrace ++ [⟨.writeSector (d.val : Int) n (s.pbuf ++ bytes), .ok .done⟩],
        diag := s.diag ++ [⟨.concurrentWriteViolation .engine, s.now⟩] })

/-- The sector number of READ, WRITE and WRITE_VERIFY is `aux2 << 8 | aux1` and reaches the drive port unchanged,
neither range-checked nor decremented (30_encoding.md R97): the one call made carries it, whatever its outcome. -/
def Obligations.SectorNumberIsPassedUnchanged : Prop :=
  (∀ a1 a2 : Byte, (sectorOf a1 a2).toNat = 256 * a2.toNat + a1.toNat) ∧
  ∀ (s t : State) (d : Drive) (n : Sector),
    (exec (.read d n) s = .next t → ∃ r, t.driveTrace = s.driveTrace ++ [⟨.readSector (d.val : Int) n, r⟩]) ∧
    (exec (.write d n) s = .next t → ∃ r, t.driveTrace = s.driveTrace ++ [⟨.sectorSize (d.val : Int) (some n), r⟩]) ∧
    (exec (.writeVerify d n) s = .next t →
      ∃ r, t.driveTrace = s.driveTrace ++ [⟨.sectorSize (d.val : Int) (some n), r⟩])

/-- Frame of every command frame: the clock, the configuration, both timestamps, the payload buffer, the transport's
queue, the transmit trace, the replies and the coming events are unchanged; the diagnostics and the drive calls only
grow; the lock, if it is held, and the sequence in flight with it are unchanged; the pending write changes only in
STATUS, READ, WRITE, WRITE_VERIFY and FORMAT. So no byte is handed to the transport in the step that dispatches
(20_memory.md R78). -/
def Obligations.CommandFramesLeaveTheRest : Prop :=
  ∀ (i : Instr) (s t : State), i.format? = .command → exec i s = .next t →
    t.config = s.config ∧ t.now = s.now ∧ t.tRx = s.tRx ∧ t.tRef = s.tRef ∧ t.pbuf = s.pbuf ∧ t.fbuf = [] ∧
    t.txQueued = s.txQueued ∧ t.txTrace = s.txTrace ∧ t.replies = s.replies ∧ t.pending = s.pending ∧
    (∃ l, t.diag = s.diag ++ l) ∧ (∃ l, t.driveTrace = s.driveTrace ++ l) ∧
    (s.txActive = true →
      t.txActive = true ∧ t.txSegs = s.txSegs ∧ t.txPhase = s.txPhase ∧ t.txCont = s.txCont) ∧
    (t.pw = s.pw ∨ ∃ d n a1 a2,
      i = .status d a1 a2 ∨ i = .read d n ∨ i = .write d n ∨ i = .writeVerify d n ∨ i = .format d a1 a2)

/-- No command but FORMAT changes the sector store of any drive, and no command touches the handle of a drive it does not
address (20_memory.md R60, R77). For a handle that is no reference image the store is what the calls it has received say
of it: it has received calls that only ask, and the last write of every sector stands (what it answers beyond that is
free, log entry 11). That no drive shares the image of another is the model's choice (log entry 26). -/
def Obligations.CommandFramesLeaveTheStore : Prop :=
  ∀ (i : Instr) (s t : State), i.format? = .command → exec i s = .next t →
    ((∀ d a1 a2, i ≠ .format d a1 a2) → sameStore s t ∧ t.draws = s.draws) ∧
    (∀ e : Drive, drive? i ≠ some e → t.slots[e] = s.slots[e])

/-! ### The Sector-Write Receiver -/

/-- 44_sector_write_receiver.md R202: an incomplete payload is accumulated; nothing is transmitted, no drive-port call
is made, no diagnostic is raised. The stamps of `t_rx` and `t_ref` (R130) and the boundary at exactly T_ABORT (R209) are
decisions D5, D10 of the spec. -/
def Obligations.IncompletePayloadAccumulates : Prop :=
  ∀ (s : State) (bytes : List Byte) (p : PendingWrite),
    s.pstate = .awaitingSectorData → s.pw = some p → s.now - s.tRx ≤ s.config.tAbort →
    (s.pbuf ++ bytes).length < p.len →
    exec (.payload bytes) s = .next { s with tRx := s.now, tRef := s.now, pbuf := s.pbuf ++ bytes }

/-- 44_sector_write_receiver.md R203, R204: a complete payload is handed to `writeSector` in ProcessingData, clipped to
the size the handle reports then (42_drive_registry.md R155); if the write succeeds the ACK and the COMPLETE are started.
Everything the instruction writes is in the equation. Completion is decision D6 of the spec, the stamps and the boundary
D5, D10, the two segments and WRITE_DONE_DRAIN D11, D12. -/
def Obligations.CompletePayloadIsWritten : Prop :=
  ∀ (s : State) (bytes : List Byte) (p : PendingWrite) (h h1 h2 : Handle) (size : Nat),
    s.pstate = .awaitingSectorData → s.pw = some p → s.now - s.tRx ≤ s.config.tAbort →
    (s.pbuf ++ bytes).length = p.len → s.slots[p.drive] = some h →
    h.getSectorSize s.config.sectorSizeMax (some p.sector.toNat) = (size, h1) →
    1 ≤ size → size ≤ s.config.sectorSizeMax →
    h1.putSector p.sector.toNat ((s.pbuf ++ bytes).take size) size = (.ok (), h2) → s.txActive = false →
    exec (.payload bytes) s = .next { s with
      tRx := s.now, tRef := s.now, pbuf := [], pw := none, pstate := .processingData,
      slots := s.slots.set p.drive (some h2),
      driveTrace := s.driveTrace ++ [⟨.writeSector (p.drive.val : Int) p.sector (s.pbuf ++ bytes), .ok .done⟩],
      txActive := true, txPhase := .waitDelay, txCont := .toAwaitingCommand,
      txSegs := [⟨[0x41], s.config.tAck, false⟩, ⟨[0x43], s.config.tComplete, s.config.writeDoneDrain⟩] }

/-- A write that fails, because the slot was unbound meanwhile or the handle refuses, ends in silence (decision D19 of
the spec). -/
def Obligations.FailedWriteIsSilent : Prop :=
  ∀ (s : State) (bytes : List Byte) (p : PendingWrite),
    s.pstate = .awaitingSectorData → s.pw = some p → s.now - s.tRx ≤ s.config.tAbort →
    (s.pbuf ++ bytes).length = p.len →
    (s.slots[p.drive] = none →
      exec (.payload bytes) s = .next { s with
        tRx := s.now, tRef := s.now, pbuf := [], pw := none, pstate := .awaitingCommand,
        driveTrace := s.driveTrace ++ [⟨.writeSector (p.drive.val : Int) p.sector (s.pbuf ++ bytes), .err .noDrive⟩],
        diag := s.diag ++ [⟨.unknownDrive (.index p.drive) .slotUnbound, s.now⟩] }) ∧
    (∀ h h1 h2 size x, s.slots[p.drive] = some h →
      h.getSectorSize s.config.sectorSizeMax (some p.sector.toNat) = (size, h1) →
      1 ≤ size → size ≤ s.config.sectorSizeMax →
      h1.putSector p.sector.toNat ((s.pbuf ++ bytes).take size) size = (.err (.handleError x), h2) →
      exec (.payload bytes) s = .next { s with
        tRx := s.now, tRef := s.now, pbuf := [], pw := none, pstate := .awaitingCommand,
        slots := s.slots.set p.drive (some h2),
        driveTrace := s.driveTrace ++
          [⟨.writeSector (p.drive.val : Int) p.sector (s.pbuf ++ bytes), .err (.handleError x)⟩],
        diag := s.diag ++ [⟨.driveFault (.handleError x), s.now⟩] })

/-- Bytes beyond the expected length are dropped with a diagnostic raised before the write, and change nothing else
(decision D6 of the spec): the chunk acts as its part up to the expected length. -/
def Obligations.ExcessPayloadIsDropped : Prop :=
  ∀ (s : State) (bytes : List Byte) (p : PendingWrite),
    s.pstate = .awaitingSectorData → s.pw = some p → s.now - s.tRx ≤ s.config.tAbort →
    s.pbuf.length < p.len → p.len < (s.pbuf ++ bytes).length →
    exec (.payload bytes) s =
      exec (.payload (bytes.take (p.len - s.pbuf.length)))
        { s with diag := s.diag ++ [⟨.unexpectedData ((s.pbuf ++ bytes).drop p.len) .awaitingSectorData, s.now⟩] }

/-- A chunk later than T_ABORT aborts the payload without touching the drive and starts a command frame (decision D7
of the spec). -/
def Obligations.LatePayloadStartsAFrame : Prop :=
  ∀ (s : State) (bytes : List Byte) (p : PendingWrite),
    s.pstate = .awaitingSectorData → s.pw = some p → s.config.tAbort < s.now - s.tRx → s.fbuf = [] →
    bytes.length < 5 →
    exec (.payload bytes) s = .next { s with
      tRx := s.now, tRef := s.now, pbuf := [], pw := none, pstate := .awaitingCommand, fbuf := bytes,
      diag := s.diag ++ [⟨.timeoutPayload s.pbuf.length p.len, s.now⟩] }

/-- Payload bytes sent to a block that is not armed: dropped in a Processing state, taken as the bytes of a frame in
AwaitingCommand (what the spec derives in 70_reset_and_hazards.md section 4; that the row PAYLOAD covers these states is
the model's, log entry 18). -/
def Obligations.PayloadWithoutAnAck : Prop :=
  ∀ (s : State) (bytes : List Byte),
    ((s.pstate = .processingCommand ∨ s.pstate = .processingData) →
      exec (.payload bytes) s = .next { s with
        tRx := s.now, diag := s.diag ++ [⟨.unexpectedData bytes s.pstate, s.now⟩] }) ∧
    (s.pstate = .awaitingCommand → (s.fbuf = [] ∨ s.now - s.tRx ≤ s.config.tFrameGap) →
      (s.fbuf ++ bytes).length < 5 →
      exec (.payload bytes) s = .next { s with tRx := s.now, tRef := s.now, fbuf := s.fbuf ++ bytes })

/-- Frame of the payload: within the abort threshold every sector of every image but the pending one reads as before,
and nothing is handed to the transport (20_memory.md R71). The address stored to is the pending write's. That no drive
shares the image of another is the model's choice (log entry 26). -/
def Obligations.PayloadStoresOneSector : Prop :=
  ∀ (s t : State) (bytes : List Byte) (p : PendingWrite),
    s.pstate = .awaitingSectorData → s.pw = some p → s.now - s.tRx ≤ s.config.tAbort →
    exec (.payload bytes) s = .next t →
    t.config = s.config ∧ t.now = s.now ∧ t.fbuf = s.fbuf ∧ t.txQueued = s.txQueued ∧ t.txTrace = s.txTrace ∧
    t.replies = s.replies ∧ t.pending = s.pending ∧ t.draws = s.draws ∧
    (∀ e : Drive, e ≠ p.drive → t.slots[e] = s.slots[e]) ∧
    (∀ (e : Drive) (img : Image), s.slots[e] = some (.reference img) →
      ∃ img', t.slots[e] = some (.reference img') ∧
        ∀ m : Nat, (e ≠ p.drive ∨ m ≠ p.sector.toNat) → img'.getSector m = img.getSector m)

/-- `AbortTimeout`: enabled strictly after T_ABORT of silence; it discards the payload, clears the pending write and
returns to AwaitingCommand without touching the drive (decisions D7, D8 of the spec). That it gives no step while it
is not enabled is the model's form of "not enabled" (log entry 3). -/
def Obligations.AbortTimeoutDiscardsThePayload : Prop :=
  ∀ (s : State) (t : Time) (rest : List TimedEvent) (p : PendingWrite),
    s.pending = ⟨t, .abortTimeout⟩ :: rest → s.now ≤ t → s.pstate = .awaitingSectorData → s.pw = some p →
    (s.config.tAbort < t - s.tRx →
      step s = .next { s with
        now := t, pending := rest, pbuf := [], pw := none, pstate := .awaitingCommand,
        diag := s.diag ++ [⟨.timeoutPayload s.pbuf.length p.len, t⟩] }) ∧
    (t - s.tRx ≤ s.config.tAbort → step s = .refused .abortNotDue)

/-- The two detections of the abort agree (what the spec derives in 44_sector_write_receiver.md section 3): a run in
which `AbortTimeout` comes at `t'` before the late chunk, and a run in which it never comes, reach the same result but
for the diagnostics' stamps. -/
def Obligations.BothAbortDetectionsAgree : Prop :=
  ∀ (s : State) (t t' : Time) (bytes : List Byte) (rest : List TimedEvent),
    Inv s → s.pstate = .awaitingSectorData → s.pending = ⟨t, .rxChunk bytes⟩ :: rest →
    s.now ≤ t' → t' ≤ t → s.config.tAbort < t' - s.tRx →
    mapResult (fun u => { u with diag := [] })
        (Host.Core.run Sys2Proof.core 2 { s with pending := ⟨t', .abortTimeout⟩ :: s.pending }) =
      mapResult (fun u => { u with diag := [] }) (step s)

/-! ### The Response Transmitter -/

/-- Each response row hands its bytes to the transport when it is the head segment, the transmitter waits to send it
and its delay from `t_ref` has passed. That NAK and ERR, which no sequence of the engine holds, are sent when an
external requester's segment is one is the model's reading (log entry 5). -/
def Obligations.SegmentsAreSentWhenDue : Prop :=
  ∀ (s : State) (g : Segment) (segs : List Segment) (i : Instr),
    s.txSegs = g :: segs → s.txPhase = .waitDelay → s.tRef + g.delayMicros * 1000 ≤ s.now →
    ((i = .ack ∧ g.bytes = [0x41]) ∨ (i = .complete ∧ g.bytes = [0x43]) ∨ (i = .nak ∧ g.bytes = [0x4E]) ∨
     (i = .err ∧ g.bytes = [0x45]) ∨
     ∃ data c, i = .dataBlock data ∧ checksum data = some c ∧ g.bytes = data ++ [c]) →
    exec i s = .next { s with
      txPhase := .waitWrite, txTrace := s.txTrace ++ [⟨g.bytes, s.now⟩],
      txQueued := s.txQueued + g.bytes.length }

/-- Each segment's delay is a minimum wait from the timing reference: whenever a step adds to the transmit trace, what
it adds is the head segment, at an instant no earlier than its deadline, and the transmitter was waiting to send it
(45_response_transmitter.md R215 (b)). -/
def Obligations.NothingIsSentBeforeItsDeadline : Prop :=
  ∀ s t : State, step s = .next t → t.txTrace.length > s.txTrace.length →
    ∃ g segs, s.txSegs = g :: segs ∧ s.txPhase = .waitDelay ∧ t.txPhase = .waitWrite ∧
      s.tRef + g.delayMicros * 1000 ≤ t.now ∧ t.txTrace = s.txTrace ++ [⟨g.bytes, t.now⟩]

/-- While a sequence of the engine is in flight the block sends ACK, COMPLETE or a data block and nothing else: never
NAK, never ERR (30_encoding.md R90, R94, R104). -/
def Obligations.EngineSendsNoErrorCode : Prop :=
  ∀ s t : State, Inv s → step s = .next t → s.txCont ≠ .noChange → t.txTrace.length > s.txTrace.length →
    ∃ b, t.txTrace = s.txTrace ++ [⟨b, t.now⟩] ∧ engineBytes b ∧ b ≠ [0x4E] ∧ b ≠ [0x45]

/-- The sequences are never interleaved: what has been sent and what is still owed of the sequence in flight, taken
together, change only when a new sequence is accepted with the lock free, which sends nothing; transport errors and
reset, which cut a sequence, apart. The spec derives this (45_response_transmitter.md section 4). -/
def Obligations.SequencesAreNotInterleaved : Prop :=
  ∀ s t : State, Inv s → step s = .next t →
    (∀ e rest, s.pending = e :: rest → e.event ≠ .reset ∧ ∀ r, e.event ≠ .transportError r) →
    (t.txTrace.map TxRecord.bytes ++ owed t = s.txTrace.map TxRecord.bytes ++ owed s) ∨
    (s.txActive = false ∧ owed s = [] ∧ t.txActive = true ∧ t.txPhase = .waitDelay ∧ t.txTrace = s.txTrace)

/-- `WriteDone`: a draining segment waits for the drain, another is complete and becomes the timing reference for its
successor; in any other phase the event is ignored (decisions D10, D37 of the spec). -/
def Obligations.WriteDoneEndsTheWrite : Prop :=
  ∀ (s : State) (t : Time) (rest : List TimedEvent), s.pending = ⟨t, .writeDone⟩ :: rest → s.now ≤ t →
    (s.txPhase ≠ .waitWrite → step s = .next { s with now := t, pending := rest }) ∧
    (∀ g segs, s.txPhase = .waitWrite → s.txSegs = g :: segs → g.mustDrain = true →
      step s = .next { s with now := t, pending := rest, txPhase := .waitDrain }) ∧
    (∀ g g' segs, s.txPhase = .waitWrite → s.txSegs = g :: g' :: segs → g.mustDrain = false →
      step s = .next { s with now := t, pending := rest, tRef := t, txSegs := g' :: segs, txPhase := .waitDelay })

/-- 45_response_transmitter.md R226: when the last segment is complete, at `WriteDone` or for a draining one only at
`DrainDone`, the lock is released and the continuation applied in the same step; the continuation to
AwaitingSectorData arms the receiver. Completion at `WriteDone` is decision D37 of the spec (R223), the stamp of `t_ref`
D10 (R225), the arming with the stamp of `t_rx` D8 (43_dispatch.md R179). -/
def Obligations.LastSegmentReleasesTheLock : Prop :=
  ∀ (s : State) (t : Time) (e : Event) (g : Segment) (rest : List TimedEvent),
    s.pending = ⟨t, e⟩ :: rest → s.now ≤ t → s.txSegs = [g] →
    (e = .writeDone → s.txPhase = .waitWrite → g.mustDrain = true →
      step s = .next { s with now := t, pending := rest, txPhase := .waitDrain }) ∧
    (((e = .writeDone ∧ s.txPhase = .waitWrite ∧ g.mustDrain = false) ∨
      (e = .drainDone ∧ s.txPhase = .waitDrain ∧ s.txQueued = 0)) →
      (s.txCont = .toAwaitingCommand →
        step s = .next { s with
          now := t, pending := rest, tRef := t, txSegs := [], txActive := false, txPhase := .idle,
          txCont := .noChange, pstate := .awaitingCommand }) ∧
      (s.txCont = .toAwaitingSectorData →
        step s = .next { s with
          now := t, pending := rest, tRef := t, txSegs := [], txActive := false, txPhase := .idle,
          txCont := .noChange, pstate := .awaitingSectorData, pbuf := [], tRx := t }) ∧
      (s.txCont = .noChange →
        step s = .next { s with
          now := t, pending := rest, tRef := t, txSegs := [], txActive := false, txPhase := .idle }))

/-- The transport's queue and the drain. Flushing `n` of the queued bytes shrinks the queue by `n` and does nothing else,
and more than are queued cannot be flushed (10_state.md R37; the event is the model's, log entry 15). `DrainDone` before
the last segment, and where it is not expected: with everything flushed the next segment begins its delay (decision D10
of the spec), in another phase the event is ignored, and while bytes are queued it gives no step (R37,
45_response_transmitter.md R224; the form "no step" is the model's, log entry 3). -/
def Obligations.DrainDoneEndsTheDrain : Prop :=
  (∀ (s : State) (t : Time) (n : Nat) (rest : List TimedEvent), s.pending = ⟨t, .flushed n⟩ :: rest → s.now ≤ t →
    (n ≤ s.txQueued → step s = .next { s with now := t, pending := rest, txQueued := s.txQueued - n }) ∧
    (s.txQueued < n → step s = .refused .flushedTooMany)) ∧
  ∀ (s : State) (t : Time) (rest : List TimedEvent), s.pending = ⟨t, .drainDone⟩ :: rest → s.now ≤ t →
    (s.txPhase ≠ .waitDrain → step s = .next { s with now := t, pending := rest }) ∧
    (s.txPhase = .waitDrain → s.txQueued ≠ 0 → step s = .refused .drainNotFlushed) ∧
    (∀ g g' segs, s.txPhase = .waitDrain → s.txQueued = 0 → s.txSegs = g :: g' :: segs →
      step s = .next { s with now := t, pending := rest, tRef := t, txSegs := g' :: segs, txPhase := .waitDelay })

/-- The drain is the block's fence (20_memory.md R79): while a segment drains, no byte is handed to the transport, the
segments and the lock stay, and in a Processing state the protocol state stays, unless the transport confirms the
flush with nothing left queued, or the sequence is cut by a transport error or a reset. -/
def Obligations.DrainBlocksProgress : Prop :=
  ∀ (s t : State) (e : TimedEvent) (rest : List TimedEvent),
    Inv s → s.txPhase = .waitDrain → s.pending = e :: rest → step s = .next t →
    e.event ≠ .reset → (∀ r, e.event ≠ .transportError r) →
    t.txTrace = s.txTrace ∧
    ((e.event = .drainDone ∧ s.txQueued = 0) ∨
     (t.txPhase = .waitDrain ∧ t.txSegs = s.txSegs ∧ t.txActive = true ∧ t.txCont = s.txCont ∧
      (s.pstate.processing = true → t.pstate = s.pstate ∧ t.tRef = s.tRef)))

/-- 45_response_transmitter.md R227: a sequence offered while one is active, by whatever requester, is refused; the
diagnostic is raised, the requester is told, and the sequence in flight is untouched. -/
def Obligations.SecondSequenceIsRefused : Prop :=
  (∀ (req : Requester) (segs : List Segment) (cont : Continuation) (s : State), s.txActive = true →
    txStart req segs cont s = (false, { s with diag := s.diag ++ [⟨.concurrentWriteViolation req, s.now⟩] })) ∧
  ∀ (s : State) (t : Time) (k : Nat) (segs : List Segment) (rest : List TimedEvent),
    s.pending = ⟨t, .txStart k segs⟩ :: rest → s.now ≤ t → segs ≠ [] → (∀ g ∈ segs, g.bytes ≠ []) →
    s.txActive = true →
    step s = .next { s with
      now := t, pending := rest, diag := s.diag ++ [⟨.concurrentWriteViolation (.other k), t⟩],
      replies := s.replies ++ [.txRefused k] }

/-- A sequence offered while the lock is free takes it; `t_ref` and the protocol state are not changed
(decisions D10, D29 of the spec). -/
def Obligations.FreeLockIsTaken : Prop :=
  ∀ (s : State) (t : Time) (k : Nat) (segs : List Segment) (rest : List TimedEvent),
    s.pending = ⟨t, .txStart k segs⟩ :: rest → s.now ≤ t → segs ≠ [] → (∀ g ∈ segs, g.bytes ≠ []) →
    s.txActive = false →
    step s = .next { s with
      now := t, pending := rest, txActive := true, txSegs := segs, txCont := .noChange, txPhase := .waitDelay,
      replies := s.replies ++ [.txStarted k] }

/-! ### Errors of the transport, management, the drive port -/

/-- A transport error abandons the current operation (the list is decision D20 of the spec): the sequence is cut, the
lock freed, the buffers and the pending write cleared; the transmit trace, the queue and the drives stay. -/
def Obligations.TransportErrorAbandonsTheOperation : Prop :=
  ∀ (s : State) (t : Time) (r : Nat) (rest : List TimedEvent),
    s.pending = ⟨t, .transportError r⟩ :: rest → s.now ≤ t →
    step s = .next { s with
      now := t, pending := rest, txSegs := [], txPhase := .idle, txActive := false, txCont := .noChange,
      pbuf := [], pw := none, fbuf := [], pstate := .awaitingCommand,
      diag := s.diag ++ [⟨.transportError r, t⟩] }

/-- Reset while running (70_reset_and_hazards.md section 3, decision D21 of the spec): every register of the block is as
after reset, the sequence in flight is cut, the drive table empty; the configuration stays. What the environment's own
fields hold then, and that the traces start over, is the model's (log entry 16). -/
def Obligations.RunningResetEmptiesTheBlock : Prop :=
  ∀ (s : State) (t : Time) (rest : List TimedEvent), s.pending = ⟨t, .reset⟩ :: rest → s.now ≤ t →
    ∃ u, step s = .next u ∧
      u.pstate = .awaitingCommand ∧ u.fbuf = [] ∧ u.pbuf = [] ∧ u.pw = none ∧ u.txActive = false ∧ u.txSegs = [] ∧
      u.txPhase = .idle ∧ u.txCont = .noChange ∧ u.tRef = t ∧ (∀ d : Drive, u.slots[d] = none) ∧
      u.config = s.config ∧ u.now = t ∧ u.txQueued = s.txQueued ∧ u.pending = rest ∧
      u.txTrace = [] ∧ u.diag = [] ∧ u.driveTrace = []

/-- 42_drive_registry.md R151: `bind` validates the index and binds or replaces; outside 0..7 it fails with
InvalidDriveIndex and changes no state of the block. -/
def Obligations.BindValidatesItsIndex : Prop :=
  ∀ (s : State) (t : Time) (i : Int) (h : Handle) (rest : List TimedEvent),
    s.pending = ⟨t, .bind i h⟩ :: rest → s.now ≤ t →
    ((i < 0 ∨ 8 ≤ i) →
      step s = .next { s with
        now := t, pending := rest, replies := s.replies ++ [.bound (.err .invalidDriveIndex)] }) ∧
    (∀ d : Drive, i = (d.val : Int) →
      step s = .next { s with
        now := t, pending := rest, slots := s.slots.set d (some h), replies := s.replies ++ [.bound (.ok ())] })

/-- `unbind` empties the slot and leaves a write in flight alone; unbinding an unbound slot is `Ok` (decision D27 of
the spec). -/
def Obligations.UnbindEmptiesTheSlot : Prop :=
  ∀ (s : State) (t : Time) (i : Int) (rest : List TimedEvent),
    s.pending = ⟨t, .unbind i⟩ :: rest → s.now ≤ t →
    ((i < 0 ∨ 8 ≤ i) →
      step s = .next { s with
        now := t, pending := rest, replies := s.replies ++ [.unbound (.err .invalidDriveIndex)] }) ∧
    (∀ d : Drive, i = (d.val : Int) →
      step s = .next { s with
        now := t, pending := rest, slots := s.slots.set d none, replies := s.replies ++ [.unbound (.ok ())] })

/-- What 20_memory.md R67 requires of every handle, over the drive port: (a) after `format` any sector that can be
read is 0xFF bytes of the size the drive reports for it; (b) a sector just written reads as what was written, clipped
to the size the drive reported (for a handle that is not the reference image: if that size is filled, else its rest is
any value, 93_implementation_defined.md U7, log entry 12); (c) `status` returns exactly four bytes. -/
def Obligations.RegistryKeepsItsPromises : Prop :=
  (∀ (s s1 s2 : State) (d : Drive) (n : Sector) (buf data : List Byte),
    portFormat (d.val : Int) s = .answered (.ok buf) s1 →
    portReadSector (d.val : Int) n s1 = .answered (.ok data) s2 →
    ∃ h, s1.slots[d] = some h ∧
      data = List.replicate (h.getSectorSize s1.config.sectorSizeMax (some n.toNat)).1 0xFF) ∧
  (∀ (s s1 : State) (d : Drive) (n : Sector) (data : List Byte) (h : Handle),
    portWriteSector (d.val : Int) n data s = .answered (.ok ()) s1 → s.slots[d] = some h →
    ((∃ img, h = .reference img) ∨ (h.getSectorSize s.config.sectorSizeMax (some n.toNat)).1 ≤ data.length) →
    ∃ s2, portReadSector (d.val : Int) n s1 =
      .answered (.ok (data.take (h.getSectorSize s.config.sectorSizeMax (some n.toNat)).1)) s2) ∧
  (∀ (s s1 : State) (i : Int) (st : Vector Byte 4), portStatus i s = .answered (.ok st) s1 → st.toList.length = 4)

/-- Every drive-port operation validates its index first (42_drive_registry.md R150): outside 0..7 it fails with
InvalidDriveIndex and reaches no handle. -/
def Obligations.PortValidatesItsIndex : Prop :=
  ∀ (s : State) (i : Int) (n : Sector) (m : Option Sector) (b : List Byte), (i < 0 ∨ 8 ≤ i) →
    portStatus i s = .answered (.err .invalidDriveIndex)
      { s with driveTrace := s.driveTrace ++ [⟨.status i, .err .invalidDriveIndex⟩] } ∧
    portReadSector i n s = .answered (.err .invalidDriveIndex)
      { s with driveTrace := s.driveTrace ++ [⟨.readSector i n, .err .invalidDriveIndex⟩] } ∧
    portWriteSector i n b s = .answered (.err .invalidDriveIndex)
      { s with driveTrace := s.driveTrace ++ [⟨.writeSector i n b, .err .invalidDriveIndex⟩] } ∧
    portSectorSize i m s = .answered (.err .invalidDriveIndex)
      { s with driveTrace := s.driveTrace ++ [⟨.sectorSize i m, .err .invalidDriveIndex⟩] } ∧
    portSectorCount i s = .answered (.err .invalidDriveIndex)
      { s with driveTrace := s.driveTrace ++ [⟨.sectorCount i, .err .invalidDriveIndex⟩] } ∧
    portFormat i s = .answered (.err .invalidDriveIndex)
      { s with driveTrace := s.driveTrace ++ [⟨.format i, .err .invalidDriveIndex⟩] }
end

