-- ==== Sys2Proof/Laws/Checksum.lean ====
section
/-! SUPPORT. The Checksum Unit: one fold keeps the sum in a byte and preserves it modulo 255 (40_checksum.md R121). -/

namespace Sys2Proof.Machine

/-- What one addition and fold does to a sum that fits a byte. -/
theorem foldCarry_eq (sum : Nat) (b : Byte) (h : sum ≤ 255) :
    foldCarry sum b = if sum + b.toNat ≤ 255 then sum + b.toNat else sum + b.toNat - 255 := by
  have hb := b.isLt
  have h8 : (sum + b.toNat) >>> 8 = (sum + b.toNat) / 256 := by simp [Nat.shiftRight_eq_div_pow]
  have hm : (sum + b.toNat) &&& 0xFF = (sum + b.toNat) % 256 :=
    Nat.and_two_pow_sub_one_eq_mod (sum + b.toNat) 8
  unfold foldCarry
  rw [h8, hm]
  split <;> omega

/-- The fold fits a byte again. -/
theorem foldCarry_le (sum : Nat) (b : Byte) (h : sum ≤ 255) : foldCarry sum b ≤ 255 := by
  have hb := b.isLt
  rw [foldCarry_eq sum b h]
  split <;> omega

/-- The loop never leaves a byte. -/
theorem checksumFrom_le (sum : Nat) (bs : List Byte) (h : sum ≤ 255) : checksumFrom sum bs ≤ 255 := by
  induction bs generalizing sum with
  | nil => exact h
  | cons b bs ih => exact ih _ (foldCarry_le sum b h)

@[simp] theorem checksum_nil : checksum [] = none := rfl
@[simp] theorem checksum_cons (b : Byte) (bs : List Byte) : checksum (b :: bs) = some (checksumCons b bs) := rfl
@[simp] theorem dataBlockBytes_nil : dataBlockBytes [] = none := rfl
@[simp] theorem dataBlockBytes_cons (b : Byte) (bs : List Byte) :
    dataBlockBytes (b :: bs) = some (b :: bs ++ [checksumCons b bs]) := rfl

/-- A data block is its data and one more byte, so it has at least two bytes. -/
theorem dataBlockBytes_spec {data bytes : List Byte} (h : dataBlockBytes data = some bytes) :
    data ≠ [] ∧ ∃ c, checksum data = some c ∧ bytes = data ++ [c] := by
  cases data with
  | nil => simp at h
  | cons b bs =>
    simp only [dataBlockBytes_cons, Option.some.injEq] at h
    exact ⟨by simp, _, rfl, h.symm⟩

end Sys2Proof.Machine
end

