-- ==== Sys2Proof/Laws/State.lean ====
section
/-! SUPPORT. One lemma per field per named update of the state, so that no later proof unfolds a record update. -/

namespace Sys2Proof.Machine

variable (s : State)

/-! ### raise -/
@[simp] theorem raise_config (d : Diagnostic) : (raise d s).config = s.config := rfl
@[simp] theorem raise_now (d : Diagnostic) : (raise d s).now = s.now := rfl
@[simp] theorem raise_pstate (d : Diagnostic) : (raise d s).pstate = s.pstate := rfl
@[simp] theorem raise_fbuf (d : Diagnostic) : (raise d s).fbuf = s.fbuf := rfl
@[simp] theorem raise_tRx (d : Diagnostic) : (raise d s).tRx = s.tRx := rfl
@[simp] theorem raise_pbuf (d : Diagnostic) : (raise d s).pbuf = s.pbuf := rfl
@[simp] theorem raise_pw (d : Diagnostic) : (raise d s).pw = s.pw := rfl
@[simp] theorem raise_txActive (d : Diagnostic) : (raise d s).txActive = s.txActive := rfl
@[simp] theorem raise_txSegs (d : Diagnostic) : (raise d s).txSegs = s.txSegs := rfl
@[simp] theorem raise_txPhase (d : Diagnostic) : (raise d s).txPhase = s.txPhase := rfl
@[simp] theorem raise_tRef (d : Diagnostic) : (raise d s).tRef = s.tRef := rfl
@[simp] theorem raise_txCont (d : Diagnostic) : (raise d s).txCont = s.txCont := rfl
@[simp] theorem raise_slots (d : Diagnostic) : (raise d s).slots = s.slots := rfl
@[simp] theorem raise_txQueued (d : Diagnostic) : (raise d s).txQueued = s.txQueued := rfl
@[simp] theorem raise_txTrace (d : Diagnostic) : (raise d s).txTrace = s.txTrace := rfl
@[simp] theorem raise_diag (d : Diagnostic) : (raise d s).diag = s.diag ++ [⟨d, s.now⟩] := rfl
@[simp] theorem raise_driveTrace (d : Diagnostic) : (raise d s).driveTrace = s.driveTrace := rfl
@[simp] theorem raise_replies (d : Diagnostic) : (raise d s).replies = s.replies := rfl
@[simp] theorem raise_pending (d : Diagnostic) : (raise d s).pending = s.pending := rfl
@[simp] theorem raise_draws (d : Diagnostic) : (raise d s).draws = s.draws := rfl

/-! ### logCall -/
@[simp] theorem logCall_config (op : DriveOp) (r : Answer DriveValue) : (logCall op r s).config = s.config := rfl
@[simp] theorem logCall_now (op : DriveOp) (r : Answer DriveValue) : (logCall op r s).now = s.now := rfl
@[simp] theorem logCall_pstate (op : DriveOp) (r : Answer DriveValue) : (logCall op r s).pstate = s.pstate := rfl
@[simp] theorem logCall_fbuf (op : DriveOp) (r : Answer DriveValue) : (logCall op r s).fbuf = s.fbuf := rfl
@[simp] theorem logCall_tRx (op : DriveOp) (r : Answer DriveValue) : (logCall op r s).tRx = s.tRx := rfl
@[simp] theorem logCall_pbuf (op : DriveOp) (r : Answer DriveValue) : (logCall op r s).pbuf = s.pbuf := rfl
@[simp] theorem logCall_pw (op : DriveOp) (r : Answer DriveValue) : (logCall op r s).pw = s.pw := rfl
@[simp] theorem logCall_txActive (op : DriveOp) (r : Answer DriveValue) : (logCall op r s).txActive = s.txActive := rfl
@[simp] theorem logCall_txSegs (op : DriveOp) (r : Answer DriveValue) : (logCall op r s).txSegs = s.txSegs := rfl
@[simp] theorem logCall_txPhase (op : DriveOp) (r : Answer DriveValue) : (logCall op r s).txPhase = s.txPhase := rfl
@[simp] theorem logCall_tRef (op : DriveOp) (r : Answer DriveValue) : (logCall op r s).tRef = s.tRef := rfl
@[simp] theorem logCall_txCont (op : DriveOp) (r : Answer DriveValue) : (logCall op r s).txCont = s.txCont := rfl
@[simp] theorem logCall_slots (op : DriveOp) (r : Answer DriveValue) : (logCall op r s).slots = s.slots := rfl
@[simp] theorem logCall_txQueued (op : DriveOp) (r : Answer DriveValue) : (logCall op r s).txQueued = s.txQueued := rfl
@[simp] theorem logCall_txTrace (op : DriveOp) (r : Answer DriveValue) : (logCall op r s).txTrace = s.txTrace := rfl
@[simp] theorem logCall_diag (op : DriveOp) (r : Answer DriveValue) : (logCall op r s).diag = s.diag := rfl
@[simp] theorem logCall_driveTrace (op : DriveOp) (r : Answer DriveValue) : (logCall op r s).driveTrace = s.driveTrace ++ [⟨op, r⟩] := rfl
@[simp] theorem logCall_replies (op : DriveOp) (r : Answer DriveValue) : (logCall op r s).replies = s.replies := rfl
@[simp] theorem logCall_pending (op : DriveOp) (r : Answer DriveValue) : (logCall op r s).pending = s.pending := rfl
@[simp] theorem logCall_draws (op : DriveOp) (r : Answer DriveValue) : (logCall op r s).draws = s.draws := rfl

/-! ### setSlot -/
@[simp] theorem setSlot_config (d : Drive) (h : Option Handle) : (setSlot d h s).config = s.config := rfl
@[simp] theorem setSlot_now (d : Drive) (h : Option Handle) : (setSlot d h s).now = s.now := rfl
@[simp] theorem setSlot_pstate (d : Drive) (h : Option Handle) : (setSlot d h s).pstate = s.pstate := rfl
@[simp] theorem setSlot_fbuf (d : Drive) (h : Option Handle) : (setSlot d h s).fbuf = s.fbuf := rfl
@[simp] theorem setSlot_tRx (d : Drive) (h : Option Handle) : (setSlot d h s).tRx = s.tRx := rfl
@[simp] theorem setSlot_pbuf (d : Drive) (h : Option Handle) : (setSlot d h s).pbuf = s.pbuf := rfl
@[simp] theorem setSlot_pw (d : Drive) (h : Option Handle) : (setSlot d h s).pw = s.pw := rfl
@[simp] theorem setSlot_txActive (d : Drive) (h : Option Handle) : (setSlot d h s).txActive = s.txActive := rfl
@[simp] theorem setSlot_txSegs (d : Drive) (h : Option Handle) : (setSlot d h s).txSegs = s.txSegs := rfl
@[simp] theorem setSlot_txPhase (d : Drive) (h : Option Handle) : (setSlot d h s).txPhase = s.txPhase := rfl
@[simp] theorem setSlot_tRef (d : Drive) (h : Option Handle) : (setSlot d h s).tRef = s.tRef := rfl
@[simp] theorem setSlot_txCont (d : Drive) (h : Option Handle) : (setSlot d h s).txCont = s.txCont := rfl
@[simp] theorem setSlot_slots (d : Drive) (h : Option Handle) : (setSlot d h s).slots = s.slots.set d h := rfl
@[simp] theorem setSlot_txQueued (d : Drive) (h : Option Handle) : (setSlot d h s).txQueued = s.txQueued := rfl
@[simp] theorem setSlot_txTrace (d : Drive) (h : Option Handle) : (setSlot d h s).txTrace = s.txTrace := rfl
@[simp] theorem setSlot_diag (d : Drive) (h : Option Handle) : (setSlot d h s).diag = s.diag := rfl
@[simp] theorem setSlot_driveTrace (d : Drive) (h : Option Handle) : (setSlot d h s).driveTrace = s.driveTrace := rfl
@[simp] theorem setSlot_replies (d : Drive) (h : Option Handle) : (setSlot d h s).replies = s.replies := rfl
@[simp] theorem setSlot_pending (d : Drive) (h : Option Handle) : (setSlot d h s).pending = s.pending := rfl
@[simp] theorem setSlot_draws (d : Drive) (h : Option Handle) : (setSlot d h s).draws = s.draws := rfl

/-! ### acceptFrame -/
@[simp] theorem acceptFrame_config : (acceptFrame s).config = s.config := rfl
@[simp] theorem acceptFrame_now : (acceptFrame s).now = s.now := rfl
@[simp] theorem acceptFrame_pstate : (acceptFrame s).pstate = .processingCommand := rfl
@[simp] theorem acceptFrame_fbuf : (acceptFrame s).fbuf = [] := rfl
@[simp] theorem acceptFrame_tRx : (acceptFrame s).tRx = s.tRx := rfl
@[simp] theorem acceptFrame_pbuf : (acceptFrame s).pbuf = s.pbuf := rfl
@[simp] theorem acceptFrame_pw : (acceptFrame s).pw = s.pw := rfl
@[simp] theorem acceptFrame_txActive : (acceptFrame s).txActive = s.txActive := rfl
@[simp] theorem acceptFrame_txSegs : (acceptFrame s).txSegs = s.txSegs := rfl
@[simp] theorem acceptFrame_txPhase : (acceptFrame s).txPhase = s.txPhase := rfl
@[simp] theorem acceptFrame_tRef : (acceptFrame s).tRef = s.tRef := rfl
@[simp] theorem acceptFrame_txCont : (acceptFrame s).txCont = s.txCont := rfl
@[simp] theorem acceptFrame_slots : (acceptFrame s).slots = s.slots := rfl
@[simp] theorem acceptFrame_txQueued : (acceptFrame s).txQueued = s.txQueued := rfl
@[simp] theorem acceptFrame_txTrace : (acceptFrame s).txTrace = s.txTrace := rfl
@[simp] theorem acceptFrame_diag : (acceptFrame s).diag = s.diag := rfl
@[simp] theorem acceptFrame_driveTrace : (acceptFrame s).driveTrace = s.driveTrace := rfl
@[simp] theorem acceptFrame_replies : (acceptFrame s).replies = s.replies := rfl
@[simp] theorem acceptFrame_pending : (acceptFrame s).pending = s.pending := rfl
@[simp] theorem acceptFrame_draws : (acceptFrame s).draws = s.draws := rfl

/-! ### rejectFrame -/
@[simp] theorem rejectFrame_config (b : List Byte) : (rejectFrame b s).config = s.config := rfl
@[simp] theorem rejectFrame_now (b : List Byte) : (rejectFrame b s).now = s.now := rfl
@[simp] theorem rejectFrame_pstate (b : List Byte) : (rejectFrame b s).pstate = s.pstate := rfl
@[simp] theorem rejectFrame_fbuf (b : List Byte) : (rejectFrame b s).fbuf = [] := rfl
@[simp] theorem rejectFrame_tRx (b : List Byte) : (rejectFrame b s).tRx = s.tRx := rfl
@[simp] theorem rejectFrame_pbuf (b : List Byte) : (rejectFrame b s).pbuf = s.pbuf := rfl
@[simp] theorem rejectFrame_pw (b : List Byte) : (rejectFrame b s).pw = s.pw := rfl
@[simp] theorem rejectFrame_txActive (b : List Byte) : (rejectFrame b s).txActive = s.txActive := rfl
@[simp] theorem rejectFrame_txSegs (b : List Byte) : (rejectFrame b s).txSegs = s.txSegs := rfl
@[simp] theorem rejectFrame_txPhase (b : List Byte) : (rejectFrame b s).txPhase = s.txPhase := rfl
@[simp] theorem rejectFrame_tRef (b : List Byte) : (rejectFrame b s).tRef = s.tRef := rfl
@[simp] theorem rejectFrame_txCont (b : List Byte) : (rejectFrame b s).txCont = s.txCont := rfl
@[simp] theorem rejectFrame_slots (b : List Byte) : (rejectFrame b s).slots = s.slots := rfl
@[simp] theorem rejectFrame_txQueued (b : List Byte) : (rejectFrame b s).txQueued = s.txQueued := rfl
@[simp] theorem rejectFrame_txTrace (b : List Byte) : (rejectFrame b s).txTrace = s.txTrace := rfl
@[simp] theorem rejectFrame_diag (b : List Byte) : (rejectFrame b s).diag = s.diag ++ [⟨.framingError .checksum b, s.now⟩] := rfl
@[simp] theorem rejectFrame_driveTrace (b : List Byte) : (rejectFrame b s).driveTrace = s.driveTrace := rfl
@[simp] theorem rejectFrame_replies (b : List Byte) : (rejectFrame b s).replies = s.replies := rfl
@[simp] theorem rejectFrame_pending (b : List Byte) : (rejectFrame b s).pending = s.pending := rfl
@[simp] theorem rejectFrame_draws (b : List Byte) : (rejectFrame b s).draws = s.draws := rfl

/-! ### backToAwaiting -/
@[simp] theorem backToAwaiting_config : (backToAwaiting s).config = s.config := rfl
@[simp] theorem backToAwaiting_now : (backToAwaiting s).now = s.now := rfl
@[simp] theorem backToAwaiting_pstate : (backToAwaiting s).pstate = .awaitingCommand := rfl
@[simp] theorem backToAwaiting_fbuf : (backToAwaiting s).fbuf = s.fbuf := rfl
@[simp] theorem backToAwaiting_tRx : (backToAwaiting s).tRx = s.tRx := rfl
@[simp] theorem backToAwaiting_pbuf : (backToAwaiting s).pbuf = s.pbuf := rfl
@[simp] theorem backToAwaiting_pw : (backToAwaiting s).pw = s.pw := rfl
@[simp] theorem backToAwaiting_txActive : (backToAwaiting s).txActive = s.txActive := rfl
@[simp] theorem backToAwaiting_txSegs : (backToAwaiting s).txSegs = s.txSegs := rfl
@[simp] theorem backToAwaiting_txPhase : (backToAwaiting s).txPhase = s.txPhase := rfl
@[simp] theorem backToAwaiting_tRef : (backToAwaiting s).tRef = s.tRef := rfl
@[simp] theorem backToAwaiting_txCont : (backToAwaiting s).txCont = s.txCont := rfl
@[simp] theorem backToAwaiting_slots : (backToAwaiting s).slots = s.slots := rfl
@[simp] theorem backToAwaiting_txQueued : (backToAwaiting s).txQueued = s.txQueued := rfl
@[simp] theorem backToAwaiting_txTrace : (backToAwaiting s).txTrace = s.txTrace := rfl
@[simp] theorem backToAwaiting_diag : (backToAwaiting s).diag = s.diag := rfl
@[simp] theorem backToAwaiting_driveTrace : (backToAwaiting s).driveTrace = s.driveTrace := rfl
@[simp] theorem backToAwaiting_replies : (backToAwaiting s).replies = s.replies := rfl
@[simp] theorem backToAwaiting_pending : (backToAwaiting s).pending = s.pending := rfl
@[simp] theorem backToAwaiting_draws : (backToAwaiting s).draws = s.draws := rfl

/-! ### recover -/
@[simp] theorem recover_config : (recover s).config = s.config := rfl
@[simp] theorem recover_now : (recover s).now = s.now := rfl
@[simp] theorem recover_pstate : (recover s).pstate = .awaitingCommand := rfl
@[simp] theorem recover_fbuf : (recover s).fbuf = s.fbuf := rfl
@[simp] theorem recover_tRx : (recover s).tRx = s.tRx := rfl
@[simp] theorem recover_pbuf : (recover s).pbuf = s.pbuf := rfl
@[simp] theorem recover_pw : (recover s).pw = none := rfl
@[simp] theorem recover_txActive : (recover s).txActive = s.txActive := rfl
@[simp] theorem recover_txSegs : (recover s).txSegs = s.txSegs := rfl
@[simp] theorem recover_txPhase : (recover s).txPhase = s.txPhase := rfl
@[simp] theorem recover_tRef : (recover s).tRef = s.tRef := rfl
@[simp] theorem recover_txCont : (recover s).txCont = s.txCont := rfl
@[simp] theorem recover_slots : (recover s).slots = s.slots := rfl
@[simp] theorem recover_txQueued : (recover s).txQueued = s.txQueued := rfl
@[simp] theorem recover_txTrace : (recover s).txTrace = s.txTrace := rfl
@[simp] theorem recover_diag : (recover s).diag = s.diag := rfl
@[simp] theorem recover_driveTrace : (recover s).driveTrace = s.driveTrace := rfl
@[simp] theorem recover_replies : (recover s).replies = s.replies := rfl
@[simp] theorem recover_pending : (recover s).pending = s.pending := rfl
@[simp] theorem recover_draws : (recover s).draws = s.draws := rfl

/-! ### abandon -/
@[simp] theorem abandon_config (d : Diagnostic) : (abandon d s).config = s.config := rfl
@[simp] theorem abandon_now (d : Diagnostic) : (abandon d s).now = s.now := rfl
@[simp] theorem abandon_pstate (d : Diagnostic) : (abandon d s).pstate = .awaitingCommand := rfl
@[simp] theorem abandon_fbuf (d : Diagnostic) : (abandon d s).fbuf = s.fbuf := rfl
@[simp] theorem abandon_tRx (d : Diagnostic) : (abandon d s).tRx = s.tRx := rfl
@[simp] theorem abandon_pbuf (d : Diagnostic) : (abandon d s).pbuf = s.pbuf := rfl
@[simp] theorem abandon_pw (d : Diagnostic) : (abandon d s).pw = none := rfl
@[simp] theorem abandon_txActive (d : Diagnostic) : (abandon d s).txActive = s.txActive := rfl
@[simp] theorem abandon_txSegs (d : Diagnostic) : (abandon d s).txSegs = s.txSegs := rfl
@[simp] theorem abandon_txPhase (d : Diagnostic) : (abandon d s).txPhase = s.txPhase := rfl
@[simp] theorem abandon_tRef (d : Diagnostic) : (abandon d s).tRef = s.tRef := rfl
@[simp] theorem abandon_txCont (d : Diagnostic) : (abandon d s).txCont = s.txCont := rfl
@[simp] theorem abandon_slots (d : Diagnostic) : (abandon d s).slots = s.slots := rfl
@[simp] theorem abandon_txQueued (d : Diagnostic) : (abandon d s).txQueued = s.txQueued := rfl
@[simp] theorem abandon_txTrace (d : Diagnostic) : (abandon d s).txTrace = s.txTrace := rfl
@[simp] theorem abandon_diag (d : Diagnostic) : (abandon d s).diag = s.diag ++ [⟨d, s.now⟩] := rfl
@[simp] theorem abandon_driveTrace (d : Diagnostic) : (abandon d s).driveTrace = s.driveTrace := rfl
@[simp] theorem abandon_replies (d : Diagnostic) : (abandon d s).replies = s.replies := rfl
@[simp] theorem abandon_pending (d : Diagnostic) : (abandon d s).pending = s.pending := rfl
@[simp] theorem abandon_draws (d : Diagnostic) : (abandon d s).draws = s.draws := rfl

/-! ### stampConsumed -/
@[simp] theorem stampConsumed_config : (stampConsumed s).config = s.config := rfl
@[simp] theorem stampConsumed_now : (stampConsumed s).now = s.now := rfl
@[simp] theorem stampConsumed_pstate : (stampConsumed s).pstate = s.pstate := rfl
@[simp] theorem stampConsumed_fbuf : (stampConsumed s).fbuf = s.fbuf := rfl
@[simp] theorem stampConsumed_tRx : (stampConsumed s).tRx = s.now := rfl
@[simp] theorem stampConsumed_pbuf : (stampConsumed s).pbuf = s.pbuf := rfl
@[simp] theorem stampConsumed_pw : (stampConsumed s).pw = s.pw := rfl
@[simp] theorem stampConsumed_txActive : (stampConsumed s).txActive = s.txActive := rfl
@[simp] theorem stampConsumed_txSegs : (stampConsumed s).txSegs = s.txSegs := rfl
@[simp] theorem stampConsumed_txPhase : (stampConsumed s).txPhase = s.txPhase := rfl
@[simp] theorem stampConsumed_tRef : (stampConsumed s).tRef = s.now := rfl
@[simp] theorem stampConsumed_txCont : (stampConsumed s).txCont = s.txCont := rfl
@[simp] theorem stampConsumed_slots : (stampConsumed s).slots = s.slots := rfl
@[simp] theorem stampConsumed_txQueued : (stampConsumed s).txQueued = s.txQueued := rfl
@[simp] theorem stampConsumed_txTrace : (stampConsumed s).txTrace = s.txTrace := rfl
@[simp] theorem stampConsumed_diag : (stampConsumed s).diag = s.diag := rfl
@[simp] theorem stampConsumed_driveTrace : (stampConsumed s).driveTrace = s.driveTrace := rfl
@[simp] theorem stampConsumed_replies : (stampConsumed s).replies = s.replies := rfl
@[simp] theorem stampConsumed_pending : (stampConsumed s).pending = s.pending := rfl
@[simp] theorem stampConsumed_draws : (stampConsumed s).draws = s.draws := rfl

/-! ### unexpected -/
@[simp] theorem unexpected_config (b : List Byte) : (unexpected b s).config = s.config := rfl
@[simp] theorem unexpected_now (b : List Byte) : (unexpected b s).now = s.now := rfl
@[simp] theorem unexpected_pstate (b : List Byte) : (unexpected b s).pstate = s.pstate := rfl
@[simp] theorem unexpected_fbuf (b : List Byte) : (unexpected b s).fbuf = s.fbuf := rfl
@[simp] theorem unexpected_tRx (b : List Byte) : (unexpected b s).tRx = s.now := rfl
@[simp] theorem unexpected_pbuf (b : List Byte) : (unexpected b s).pbuf = s.pbuf := rfl
@[simp] theorem unexpected_pw (b : List Byte) : (unexpected b s).pw = s.pw := rfl
@[simp] theorem unexpected_txActive (b : List Byte) : (unexpected b s).txActive = s.txActive := rfl
@[simp] theorem unexpected_txSegs (b : List Byte) : (unexpected b s).txSegs = s.txSegs := rfl
@[simp] theorem unexpected_txPhase (b : List Byte) : (unexpected b s).txPhase = s.txPhase := rfl
@[simp] theorem unexpected_tRef (b : List Byte) : (unexpected b s).tRef = s.tRef := rfl
@[simp] theorem unexpected_txCont (b : List Byte) : (unexpected b s).txCont = s.txCont := rfl
@[simp] theorem unexpected_slots (b : List Byte) : (unexpected b s).slots = s.slots := rfl
@[simp] theorem unexpected_txQueued (b : List Byte) : (unexpected b s).txQueued = s.txQueued := rfl
@[simp] theorem unexpected_txTrace (b : List Byte) : (unexpected b s).txTrace = s.txTrace := rfl
@[simp] theorem unexpected_diag (b : List Byte) : (unexpected b s).diag = s.diag ++ [⟨.unexpectedData b s.pstate, s.now⟩] := rfl
@[simp] theorem unexpected_driveTrace (b : List Byte) : (unexpected b s).driveTrace = s.driveTrace := rfl
@[simp] theorem unexpected_replies (b : List Byte) : (unexpected b s).replies = s.replies := rfl
@[simp] theorem unexpected_pending (b : List Byte) : (unexpected b s).pending = s.pending := rfl
@[simp] theorem unexpected_draws (b : List Byte) : (unexpected b s).draws = s.draws := rfl

/-! ### unsupportedCommand -/
@[simp] theorem unsupportedCommand_config (c dev : Byte) : (unsupportedCommand c dev s).config = s.config := rfl
@[simp] theorem unsupportedCommand_now (c dev : Byte) : (unsupportedCommand c dev s).now = s.now := rfl
@[simp] theorem unsupportedCommand_pstate (c dev : Byte) : (unsupportedCommand c dev s).pstate = .awaitingCommand := rfl
@[simp] theorem unsupportedCommand_fbuf (c dev : Byte) : (unsupportedCommand c dev s).fbuf = [] := rfl
@[simp] theorem unsupportedCommand_tRx (c dev : Byte) : (unsupportedCommand c dev s).tRx = s.tRx := rfl
@[simp] theorem unsupportedCommand_pbuf (c dev : Byte) : (unsupportedCommand c dev s).pbuf = s.pbuf := rfl
@[simp] theorem unsupportedCommand_pw (c dev : Byte) : (unsupportedCommand c dev s).pw = s.pw := rfl
@[simp] theorem unsupportedCommand_txActive (c dev : Byte) : (unsupportedCommand c dev s).txActive = s.txActive := rfl
@[simp] theorem unsupportedCommand_txSegs (c dev : Byte) : (unsupportedCommand c dev s).txSegs = s.txSegs := rfl
@[simp] theorem unsupportedCommand_txPhase (c dev : Byte) : (unsupportedCommand c dev s).txPhase = s.txPhase := rfl
@[simp] theorem unsupportedCommand_tRef (c dev : Byte) : (unsupportedCommand c dev s).tRef = s.tRef := rfl
@[simp] theorem unsupportedCommand_txCont (c dev : Byte) : (unsupportedCommand c dev s).txCont = s.txCont := rfl
@[simp] theorem unsupportedCommand_slots (c dev : Byte) : (unsupportedCommand c dev s).slots = s.slots := rfl
@[simp] theorem unsupportedCommand_txQueued (c dev : Byte) : (unsupportedCommand c dev s).txQueued = s.txQueued := rfl
@[simp] theorem unsupportedCommand_txTrace (c dev : Byte) : (unsupportedCommand c dev s).txTrace = s.txTrace := rfl
@[simp] theorem unsupportedCommand_diag (c dev : Byte) : (unsupportedCommand c dev s).diag = s.diag ++ [⟨.unsupportedCommand c dev, s.now⟩] := rfl
@[simp] theorem unsupportedCommand_driveTrace (c dev : Byte) : (unsupportedCommand c dev s).driveTrace = s.driveTrace := rfl
@[simp] theorem unsupportedCommand_replies (c dev : Byte) : (unsupportedCommand c dev s).replies = s.replies := rfl
@[simp] theorem unsupportedCommand_pending (c dev : Byte) : (unsupportedCommand c dev s).pending = s.pending := rfl
@[simp] theorem unsupportedCommand_draws (c dev : Byte) : (unsupportedCommand c dev s).draws = s.draws := rfl

/-! ### txAccept -/
@[simp] theorem txAccept_config (segs : List Segment) (c : Continuation) : (txAccept segs c s).config = s.config := rfl
@[simp] theorem txAccept_now (segs : List Segment) (c : Continuation) : (txAccept segs c s).now = s.now := rfl
@[simp] theorem txAccept_pstate (segs : List Segment) (c : Continuation) : (txAccept segs c s).pstate = s.pstate := rfl
@[simp] theorem txAccept_fbuf (segs : List Segment) (c : Continuation) : (txAccept segs c s).fbuf = s.fbuf := rfl
@[simp] theorem txAccept_tRx (segs : List Segment) (c : Continuation) : (txAccept segs c s).tRx = s.tRx := rfl
@[simp] theorem txAccept_pbuf (segs : List Segment) (c : Continuation) : (txAccept segs c s).pbuf = s.pbuf := rfl
@[simp] theorem txAccept_pw (segs : List Segment) (c : Continuation) : (txAccept segs c s).pw = s.pw := rfl
@[simp] theorem txAccept_txActive (segs : List Segment) (c : Continuation) : (txAccept segs c s).txActive = true := rfl
@[simp] theorem txAccept_txSegs (segs : List Segment) (c : Continuation) : (txAccept segs c s).txSegs = segs := rfl
@[simp] theorem txAccept_txPhase (segs : List Segment) (c : Continuation) : (txAccept segs c s).txPhase = .waitDelay := rfl
@[simp] theorem txAccept_tRef (segs : List Segment) (c : Continuation) : (txAccept segs c s).tRef = s.tRef := rfl
@[simp] theorem txAccept_txCont (segs : List Segment) (c : Continuation) : (txAccept segs c s).txCont = c := rfl
@[simp] theorem txAccept_slots (segs : List Segment) (c : Continuation) : (txAccept segs c s).slots = s.slots := rfl
@[simp] theorem txAccept_txQueued (segs : List Segment) (c : Continuation) : (txAccept segs c s).txQueued = s.txQueued := rfl
@[simp] theorem txAccept_txTrace (segs : List Segment) (c : Continuation) : (txAccept segs c s).txTrace = s.txTrace := rfl
@[simp] theorem txAccept_diag (segs : List Segment) (c : Continuation) : (txAccept segs c s).diag = s.diag := rfl
@[simp] theorem txAccept_driveTrace (segs : List Segment) (c : Continuation) : (txAccept segs c s).driveTrace = s.driveTrace := rfl
@[simp] theorem txAccept_replies (segs : List Segment) (c : Continuation) : (txAccept segs c s).replies = s.replies := rfl
@[simp] theorem txAccept_pending (segs : List Segment) (c : Continuation) : (txAccept segs c s).pending = s.pending := rfl
@[simp] theorem txAccept_draws (segs : List Segment) (c : Continuation) : (txAccept segs c s).draws = s.draws := rfl

/-! ### emitWrite -/
@[simp] theorem emitWrite_config (b : List Byte) : (emitWrite b s).config = s.config := rfl
@[simp] theorem emitWrite_now (b : List Byte) : (emitWrite b s).now = s.now := rfl
@[simp] theorem emitWrite_pstate (b : List Byte) : (emitWrite b s).pstate = s.pstate := rfl
@[simp] theorem emitWrite_fbuf (b : List Byte) : (emitWrite b s).fbuf = s.fbuf := rfl
@[simp] theorem emitWrite_tRx (b : List Byte) : (emitWrite b s).tRx = s.tRx := rfl
@[simp] theorem emitWrite_pbuf (b : List Byte) : (emitWrite b s).pbuf = s.pbuf := rfl
@[simp] theorem emitWrite_pw (b : List Byte) : (emitWrite b s).pw = s.pw := rfl
@[simp] theorem emitWrite_txActive (b : List Byte) : (emitWrite b s).txActive = s.txActive := rfl
@[simp] theorem emitWrite_txSegs (b : List Byte) : (emitWrite b s).txSegs = s.txSegs := rfl
@[simp] theorem emitWrite_txPhase (b : List Byte) : (emitWrite b s).txPhase = .waitWrite := rfl
@[simp] theorem emitWrite_tRef (b : List Byte) : (emitWrite b s).tRef = s.tRef := rfl
@[simp] theorem emitWrite_txCont (b : List Byte) : (emitWrite b s).txCont = s.txCont := rfl
@[simp] theorem emitWrite_slots (b : List Byte) : (emitWrite b s).slots = s.slots := rfl
@[simp] theorem emitWrite_txQueued (b : List Byte) : (emitWrite b s).txQueued = s.txQueued + b.length := rfl
@[simp] theorem emitWrite_txTrace (b : List Byte) : (emitWrite b s).txTrace = s.txTrace ++ [⟨b, s.now⟩] := rfl
@[simp] theorem emitWrite_diag (b : List Byte) : (emitWrite b s).diag = s.diag := rfl
@[simp] theorem emitWrite_driveTrace (b : List Byte) : (emitWrite b s).driveTrace = s.driveTrace := rfl
@[simp] theorem emitWrite_replies (b : List Byte) : (emitWrite b s).replies = s.replies := rfl
@[simp] theorem emitWrite_pending (b : List Byte) : (emitWrite b s).pending = s.pending := rfl
@[simp] theorem emitWrite_draws (b : List Byte) : (emitWrite b s).draws = s.draws := rfl

/-! ### takeEvent -/
@[simp] theorem takeEvent_config (e : TimedEvent) (rest : List TimedEvent) : (takeEvent e rest s).config = s.config := rfl
@[simp] theorem takeEvent_now (e : TimedEvent) (rest : List TimedEvent) : (takeEvent e rest s).now = e.time := rfl
@[simp] theorem takeEvent_pstate (e : TimedEvent) (rest : List TimedEvent) : (takeEvent e rest s).pstate = s.pstate := rfl
@[simp] theorem takeEvent_fbuf (e : TimedEvent) (rest : List TimedEvent) : (takeEvent e rest s).fbuf = s.fbuf := rfl
@[simp] theorem takeEvent_tRx (e : TimedEvent) (rest : List TimedEvent) : (takeEvent e rest s).tRx = s.tRx := rfl
@[simp] theorem takeEvent_pbuf (e : TimedEvent) (rest : List TimedEvent) : (takeEvent e rest s).pbuf = s.pbuf := rfl
@[simp] theorem takeEvent_pw (e : TimedEvent) (rest : List TimedEvent) : (takeEvent e rest s).pw = s.pw := rfl
@[simp] theorem takeEvent_txActive (e : TimedEvent) (rest : List TimedEvent) : (takeEvent e rest s).txActive = s.txActive := rfl
@[simp] theorem takeEvent_txSegs (e : TimedEvent) (rest : List TimedEvent) : (takeEvent e rest s).txSegs = s.txSegs := rfl
@[simp] theorem takeEvent_txPhase (e : TimedEvent) (rest : List TimedEvent) : (takeEvent e rest s).txPhase = s.txPhase := rfl
@[simp] theorem takeEvent_tRef (e : TimedEvent) (rest : List TimedEvent) : (takeEvent e rest s).tRef = s.tRef := rfl
@[simp] theorem takeEvent_txCont (e : TimedEvent) (rest : List TimedEvent) : (takeEvent e rest s).txCont = s.txCont := rfl
@[simp] theorem takeEvent_slots (e : TimedEvent) (rest : List TimedEvent) : (takeEvent e rest s).slots = s.slots := rfl
@[simp] theorem takeEvent_txQueued (e : TimedEvent) (rest : List TimedEvent) : (takeEvent e rest s).txQueued = s.txQueued := rfl
@[simp] theorem takeEvent_txTrace (e : TimedEvent) (rest : List TimedEvent) : (takeEvent e rest s).txTrace = s.txTrace := rfl
@[simp] theorem takeEvent_diag (e : TimedEvent) (rest : List TimedEvent) : (takeEvent e rest s).diag = s.diag := rfl
@[simp] theorem takeEvent_driveTrace (e : TimedEvent) (rest : List TimedEvent) : (takeEvent e rest s).driveTrace = s.driveTrace := rfl
@[simp] theorem takeEvent_replies (e : TimedEvent) (rest : List TimedEvent) : (takeEvent e rest s).replies = s.replies := rfl
@[simp] theorem takeEvent_pending (e : TimedEvent) (rest : List TimedEvent) : (takeEvent e rest s).pending = rest := rfl
@[simp] theorem takeEvent_draws (e : TimedEvent) (rest : List TimedEvent) : (takeEvent e rest s).draws = s.draws := rfl

/-! ### abortPayload -/
@[simp] theorem abortPayload_config (p : PendingWrite) : (abortPayload p s).config = s.config := rfl
@[simp] theorem abortPayload_now (p : PendingWrite) : (abortPayload p s).now = s.now := rfl
@[simp] theorem abortPayload_pstate (p : PendingWrite) : (abortPayload p s).pstate = .awaitingCommand := rfl
@[simp] theorem abortPayload_fbuf (p : PendingWrite) : (abortPayload p s).fbuf = s.fbuf := rfl
@[simp] theorem abortPayload_tRx (p : PendingWrite) : (abortPayload p s).tRx = s.tRx := rfl
@[simp] theorem abortPayload_pbuf (p : PendingWrite) : (abortPayload p s).pbuf = [] := rfl
@[simp] theorem abortPayload_pw (p : PendingWrite) : (abortPayload p s).pw = none := rfl
@[simp] theorem abortPayload_txActive (p : PendingWrite) : (abortPayload p s).txActive = s.txActive := rfl
@[simp] theorem abortPayload_txSegs (p : PendingWrite) : (abortPayload p s).txSegs = s.txSegs := rfl
@[simp] theorem abortPayload_txPhase (p : PendingWrite) : (abortPayload p s).txPhase = s.txPhase := rfl
@[simp] theorem abortPayload_tRef (p : PendingWrite) : (abortPayload p s).tRef = s.tRef := rfl
@[simp] theorem abortPayload_txCont (p : PendingWrite) : (abortPayload p s).txCont = s.txCont := rfl
@[simp] theorem abortPayload_slots (p : PendingWrite) : (abortPayload p s).slots = s.slots := rfl
@[simp] theorem abortPayload_txQueued (p : PendingWrite) : (abortPayload p s).txQueued = s.txQueued := rfl
@[simp] theorem abortPayload_txTrace (p : PendingWrite) : (abortPayload p s).txTrace = s.txTrace := rfl
@[simp] theorem abortPayload_diag (p : PendingWrite) : (abortPayload p s).diag = s.diag ++ [⟨.timeoutPayload s.pbuf.length p.len, s.now⟩] := rfl
@[simp] theorem abortPayload_driveTrace (p : PendingWrite) : (abortPayload p s).driveTrace = s.driveTrace := rfl
@[simp] theorem abortPayload_replies (p : PendingWrite) : (abortPayload p s).replies = s.replies := rfl
@[simp] theorem abortPayload_pending (p : PendingWrite) : (abortPayload p s).pending = s.pending := rfl
@[simp] theorem abortPayload_draws (p : PendingWrite) : (abortPayload p s).draws = s.draws := rfl

/-! ### transportError -/
@[simp] theorem transportError_config (r : Nat) : (transportError r s).config = s.config := rfl
@[simp] theorem transportError_now (r : Nat) : (transportError r s).now = s.now := rfl
@[simp] theorem transportError_pstate (r : Nat) : (transportError r s).pstate = .awaitingCommand := rfl
@[simp] theorem transportError_fbuf (r : Nat) : (transportError r s).fbuf = [] := rfl
@[simp] theorem transportError_tRx (r : Nat) : (transportError r s).tRx = s.tRx := rfl
@[simp] theorem transportError_pbuf (r : Nat) : (transportError r s).pbuf = [] := rfl
@[simp] theorem transportError_pw (r : Nat) : (transportError r s).pw = none := rfl
@[simp] theorem transportError_txActive (r : Nat) : (transportError r s).txActive = false := rfl
@[simp] theorem transportError_txSegs (r : Nat) : (transportError r s).txSegs = [] := rfl
@[simp] theorem transportError_txPhase (r : Nat) : (transportError r s).txPhase = .idle := rfl
@[simp] theorem transportError_tRef (r : Nat) : (transportError r s).tRef = s.tRef := rfl
@[simp] theorem transportError_txCont (r : Nat) : (transportError r s).txCont = .noChange := rfl
@[simp] theorem transportError_slots (r : Nat) : (transportError r s).slots = s.slots := rfl
@[simp] theorem transportError_txQueued (r : Nat) : (transportError r s).txQueued = s.txQueued := rfl
@[simp] theorem transportError_txTrace (r : Nat) : (transportError r s).txTrace = s.txTrace := rfl
@[simp] theorem transportError_diag (r : Nat) : (transportError r s).diag = s.diag ++ [⟨.transportError r, s.now⟩] := rfl
@[simp] theorem transportError_driveTrace (r : Nat) : (transportError r s).driveTrace = s.driveTrace := rfl
@[simp] theorem transportError_replies (r : Nat) : (transportError r s).replies = s.replies := rfl
@[simp] theorem transportError_pending (r : Nat) : (transportError r s).pending = s.pending := rfl
@[simp] theorem transportError_draws (r : Nat) : (transportError r s).draws = s.draws := rfl

/-! ### resetNow -/
@[simp] theorem resetNow_config : (resetNow s).config = s.config := rfl
@[simp] theorem resetNow_now : (resetNow s).now = s.now := rfl
@[simp] theorem resetNow_pstate : (resetNow s).pstate = .awaitingCommand := rfl
@[simp] theorem resetNow_fbuf : (resetNow s).fbuf = [] := rfl
@[simp] theorem resetNow_tRx : (resetNow s).tRx = 0 := rfl
@[simp] theorem resetNow_pbuf : (resetNow s).pbuf = [] := rfl
@[simp] theorem resetNow_pw : (resetNow s).pw = none := rfl
@[simp] theorem resetNow_txActive : (resetNow s).txActive = false := rfl
@[simp] theorem resetNow_txSegs : (resetNow s).txSegs = [] := rfl
@[simp] theorem resetNow_txPhase : (resetNow s).txPhase = .idle := rfl
@[simp] theorem resetNow_tRef : (resetNow s).tRef = s.now := rfl
@[simp] theorem resetNow_txCont : (resetNow s).txCont = .noChange := rfl
@[simp] theorem resetNow_slots : (resetNow s).slots = Vector.replicate 8 none := rfl
@[simp] theorem resetNow_txQueued : (resetNow s).txQueued = s.txQueued := rfl
@[simp] theorem resetNow_txTrace : (resetNow s).txTrace = [] := rfl
@[simp] theorem resetNow_diag : (resetNow s).diag = [] := rfl
@[simp] theorem resetNow_driveTrace : (resetNow s).driveTrace = [] := rfl
@[simp] theorem resetNow_replies : (resetNow s).replies = [] := rfl
@[simp] theorem resetNow_pending : (resetNow s).pending = s.pending := rfl
@[simp] theorem resetNow_draws : (resetNow s).draws = s.draws := rfl

/-! ### appendFrame -/
@[simp] theorem appendFrame_config (b : List Byte) : (appendFrame b s).config = s.config := rfl
@[simp] theorem appendFrame_now (b : List Byte) : (appendFrame b s).now = s.now := rfl
@[simp] theorem appendFrame_pstate (b : List Byte) : (appendFrame b s).pstate = s.pstate := rfl
@[simp] theorem appendFrame_fbuf (b : List Byte) : (appendFrame b s).fbuf = s.fbuf ++ b := rfl
@[simp] theorem appendFrame_tRx (b : List Byte) : (appendFrame b s).tRx = s.tRx := rfl
@[simp] theorem appendFrame_pbuf (b : List Byte) : (appendFrame b s).pbuf = s.pbuf := rfl
@[simp] theorem appendFrame_pw (b : List Byte) : (appendFrame b s).pw = s.pw := rfl
@[simp] theorem appendFrame_txActive (b : List Byte) : (appendFrame b s).txActive = s.txActive := rfl
@[simp] theorem appendFrame_txSegs (b : List Byte) : (appendFrame b s).txSegs = s.txSegs := rfl
@[simp] theorem appendFrame_txPhase (b : List Byte) : (appendFrame b s).txPhase = s.txPhase := rfl
@[simp] theorem appendFrame_tRef (b : List Byte) : (appendFrame b s).tRef = s.tRef := rfl
@[simp] theorem appendFrame_txCont (b : List Byte) : (appendFrame b s).txCont = s.txCont := rfl
@[simp] theorem appendFrame_slots (b : List Byte) : (appendFrame b s).slots = s.slots := rfl
@[simp] theorem appendFrame_txQueued (b : List Byte) : (appendFrame b s).txQueued = s.txQueued := rfl
@[simp] theorem appendFrame_txTrace (b : List Byte) : (appendFrame b s).txTrace = s.txTrace := rfl
@[simp] theorem appendFrame_diag (b : List Byte) : (appendFrame b s).diag = s.diag := rfl
@[simp] theorem appendFrame_driveTrace (b : List Byte) : (appendFrame b s).driveTrace = s.driveTrace := rfl
@[simp] theorem appendFrame_replies (b : List Byte) : (appendFrame b s).replies = s.replies := rfl
@[simp] theorem appendFrame_pending (b : List Byte) : (appendFrame b s).pending = s.pending := rfl
@[simp] theorem appendFrame_draws (b : List Byte) : (appendFrame b s).draws = s.draws := rfl

/-! ### discardFrame -/
@[simp] theorem discardFrame_config (m : Diagnostic) : (discardFrame m s).config = s.config := rfl
@[simp] theorem discardFrame_now (m : Diagnostic) : (discardFrame m s).now = s.now := rfl
@[simp] theorem discardFrame_pstate (m : Diagnostic) : (discardFrame m s).pstate = s.pstate := rfl
@[simp] theorem discardFrame_fbuf (m : Diagnostic) : (discardFrame m s).fbuf = [] := rfl
@[simp] theorem discardFrame_tRx (m : Diagnostic) : (discardFrame m s).tRx = s.tRx := rfl
@[simp] theorem discardFrame_pbuf (m : Diagnostic) : (discardFrame m s).pbuf = s.pbuf := rfl
@[simp] theorem discardFrame_pw (m : Diagnostic) : (discardFrame m s).pw = s.pw := rfl
@[simp] theorem discardFrame_txActive (m : Diagnostic) : (discardFrame m s).txActive = s.txActive := rfl
@[simp] theorem discardFrame_txSegs (m : Diagnostic) : (discardFrame m s).txSegs = s.txSegs := rfl
@[simp] theorem discardFrame_txPhase (m : Diagnostic) : (discardFrame m s).txPhase = s.txPhase := rfl
@[simp] theorem discardFrame_tRef (m : Diagnostic) : (discardFrame m s).tRef = s.tRef := rfl
@[simp] theorem discardFrame_txCont (m : Diagnostic) : (discardFrame m s).txCont = s.txCont := rfl
@[simp] theorem discardFrame_slots (m : Diagnostic) : (discardFrame m s).slots = s.slots := rfl
@[simp] theorem discardFrame_txQueued (m : Diagnostic) : (discardFrame m s).txQueued = s.txQueued := rfl
@[simp] theorem discardFrame_txTrace (m : Diagnostic) : (discardFrame m s).txTrace = s.txTrace := rfl
@[simp] theorem discardFrame_diag (m : Diagnostic) : (discardFrame m s).diag = s.diag ++ [⟨m, s.now⟩] := rfl
@[simp] theorem discardFrame_driveTrace (m : Diagnostic) : (discardFrame m s).driveTrace = s.driveTrace := rfl
@[simp] theorem discardFrame_replies (m : Diagnostic) : (discardFrame m s).replies = s.replies := rfl
@[simp] theorem discardFrame_pending (m : Diagnostic) : (discardFrame m s).pending = s.pending := rfl
@[simp] theorem discardFrame_draws (m : Diagnostic) : (discardFrame m s).draws = s.draws := rfl

end Sys2Proof.Machine
end

