-- ==== Sys2Proof/Laws/Memory.lean ====
section
/-! SUPPORT. The sector store: reads after writes, and the canonical form, which every memory operation keeps. -/

namespace Sys2Proof.Machine

namespace Memory

/-! ### Reads -/

theorem read_put_self (dflt : List Byte) (m : Memory) (n : Nat) (b : List Byte) :
    (m.put n b).read dflt n = b := by
  induction m with
  | nil => simp [put, read]
  | cons e rest ih =>
    obtain ⟨k, v⟩ := e
    simp only [put]
    split
    · simp [read]
    · split
      · simp [read]
      · rename_i h1 h2
        simp [read, h2, ih]

theorem read_put_other (dflt : List Byte) (m : Memory) (n k : Nat) (b : List Byte) (h : k ≠ n) :
    (m.put n b).read dflt k = m.read dflt k := by
  induction m with
  | nil => simp [put, read, h]
  | cons e rest ih =>
    obtain ⟨j, v⟩ := e
    simp only [put]
    split
    · simp [read, h]
    · split
      · rename_i h1 h2
        subst h2
        simp [read, h]
      · simp [read, ih]

theorem read_drop_self (dflt : List Byte) (m : Memory) (n : Nat) : (m.drop n).read dflt n = dflt := by
  induction m with
  | nil => rfl
  | cons e rest ih =>
    obtain ⟨k, v⟩ := e
    simp only [drop]
    split
    · exact ih
    · rename_i h
      simp [read, h, ih]

theorem read_drop_other (dflt : List Byte) (m : Memory) (n k : Nat) (h : k ≠ n) :
    (m.drop n).read dflt k = m.read dflt k := by
  induction m with
  | nil => rfl
  | cons e rest ih =>
    obtain ⟨j, v⟩ := e
    simp only [drop]
    split
    · rename_i h2
      subst h2
      simp [read, h, ih]
    · simp [read, ih]

/-- Reading the sector that was written gives what was written. -/
@[simp] theorem read_write_self (dflt : List Byte) (m : Memory) (n : Nat) (b : List Byte) :
    (m.write dflt n b).read dflt n = b := by
  unfold write
  split
  · rename_i h
    rw [read_drop_self, h]
  · exact read_put_self dflt m n b

/-- A write leaves every other sector alone. -/
theorem read_write_other (dflt dflt' : List Byte) (m : Memory) (n k : Nat) (b : List Byte) (h : k ≠ n) :
    (m.write dflt' n b).read dflt k = m.read dflt k := by
  unfold write
  split
  · exact read_drop_other dflt m n k h
  · exact read_put_other dflt m n k b h

/-! ### The canonical form -/

theorem wf_cons (dflt : Nat → List Byte) (k : Nat) (v : List Byte) (rest : Memory) :
    Memory.wf dflt ((k, v) :: rest) = true ↔ (∀ e ∈ rest, k < e.1) ∧ v ≠ dflt k ∧ rest.wf dflt = true := by
  simp [Memory.wf, and_assoc]

theorem mem_put {m : Memory} {n : Nat} {b : List Byte} {e : Nat × List Byte} (h : e ∈ m.put n b) :
    e = (n, b) ∨ e ∈ m := by
  induction m with
  | nil => simpa [put] using h
  | cons f rest ih =>
    obtain ⟨k, v⟩ := f
    simp only [put] at h
    split at h
    · simpa using h
    · split at h
      · rcases List.mem_cons.1 h with h | h
        · exact .inl h
        · exact .inr (List.mem_cons_of_mem _ h)
      · rcases List.mem_cons.1 h with h | h
        · exact .inr (h ▸ List.mem_cons_self)
        · exact (ih h).imp_right (List.mem_cons_of_mem _)

theorem mem_drop {m : Memory} {n : Nat} {e : Nat × List Byte} (h : e ∈ m.drop n) : e ∈ m := by
  induction m with
  | nil => exact h
  | cons f rest ih =>
    obtain ⟨k, v⟩ := f
    simp only [drop] at h
    split at h
    · exact List.mem_cons_of_mem _ (ih h)
    · rcases List.mem_cons.1 h with h | h
      · exact h ▸ List.mem_cons_self
      · exact List.mem_cons_of_mem _ (ih h)

theorem put_keeps_wf (dflt : Nat → List Byte) (m : Memory) (n : Nat) (b : List Byte) (hb : b ≠ dflt n)
    (h : m.wf dflt = true) : (m.put n b).wf dflt = true := by
  induction m with
  | nil => simp [put, Memory.wf, hb]
  | cons f rest ih =>
    obtain ⟨k, v⟩ := f
    obtain ⟨h1, h2, h3⟩ := (wf_cons dflt k v rest).1 h
    simp only [put]
    split
    · rename_i hlt
      refine (wf_cons dflt n b _).2 ⟨fun e he => ?_, hb, h⟩
      rcases List.mem_cons.1 he with he | he
      · exact he ▸ hlt
      · exact hlt.trans (h1 e he)
    · split
      · rename_i hn
        subst hn
        exact (wf_cons dflt n b rest).2 ⟨h1, hb, h3⟩
      · refine (wf_cons dflt k v _).2 ⟨fun e he => ?_, h2, ih h3⟩
        rcases mem_put he with he | he
        · subst he
          show k < n
          omega
        · exact h1 e he

theorem drop_keeps_wf (dflt : Nat → List Byte) (m : Memory) (n : Nat) (h : m.wf dflt = true) :
    (m.drop n).wf dflt = true := by
  induction m with
  | nil => rfl
  | cons f rest ih =>
    obtain ⟨k, v⟩ := f
    obtain ⟨h1, h2, h3⟩ := (wf_cons dflt k v rest).1 h
    simp only [drop]
    split
    · exact ih h3
    · exact (wf_cons dflt k v _).2 ⟨fun e he => h1 e (mem_drop he), h2, ih h3⟩

/-- The one write operation keeps the canonical form. -/
theorem write_keeps_wf (dflt : Nat → List Byte) (m : Memory) (n : Nat) (b : List Byte) (h : m.wf dflt = true) :
    (m.write (dflt n) n b).wf dflt = true := by
  unfold write
  split
  · exact drop_keeps_wf dflt m n h
  · rename_i hb
    exact put_keeps_wf dflt m n b hb h

/-- So does the list of an image just formatted. -/
@[simp] theorem wf_nil (dflt : Nat → List Byte) : Memory.wf dflt [] = true := rfl

theorem mem_write {dflt : List Byte} {m : Memory} {n : Nat} {b : List Byte} {e : Nat × List Byte}
    (h : e ∈ m.write dflt n b) : e = (n, b) ∨ e ∈ m := by
  unfold write at h
  split at h
  · exact .inr (mem_drop h)
  · exact mem_put h

end Memory

/-! ### Images -/

/-- What `Image.wf` says. -/
theorem Image.wf_iff (img : Image) :
    img.wf = true ↔ 1 ≤ img.size ∧ 1 ≤ img.bootSize ∧ 1 ≤ img.count ∧ img.data.wf img.unlisted = true ∧
      ∀ e ∈ img.data, img.inRange e.1 = true := by
  simp [Image.wf, and_assoc]

theorem Image.putSector_eq {img img' : Image} {n : Nat} {b : List Byte} (h : img.putSector n b = some img') :
    img.inRange n = true ∧ img' = { img with data := img.data.write (img.unlisted n) n b } := by
  unfold Image.putSector at h
  split at h
  · exact ⟨‹_›, (Option.some.inj h).symm⟩
  · cases h

/-- Storing a sector keeps an image well formed. -/
theorem Image.putSector_keeps_wf {img img' : Image} {n : Nat} {b : List Byte} (hw : img.wf = true)
    (h : img.putSector n b = some img') : img'.wf = true := by
  obtain ⟨hr, rfl⟩ := Image.putSector_eq h
  obtain ⟨h1, h2, h3, h4, h5⟩ := img.wf_iff.1 hw
  refine (Image.wf_iff _).2 ⟨h1, h2, h3, Memory.write_keeps_wf img.unlisted img.data n b h4, fun e he => ?_⟩
  rcases Memory.mem_write he with he | he
  · subst he
    exact hr
  · exact h5 e he

/-- Storing a sector leaves every other sector alone and makes that one read as stored. -/
theorem Image.putSector_getSector {img img' : Image} {n : Nat} {b : List Byte} (h : img.putSector n b = some img')
    (k : Nat) : img'.getSector k = if k = n then some b else img.getSector k := by
  obtain ⟨hr, rfl⟩ := Image.putSector_eq h
  by_cases hk : k = n
  · subst hk
    simp only [Image.getSector, Image.inRange, Image.sector] at *
    simp only [hr, if_true]
    exact congrArg some (Memory.read_write_self _ _ _ _)
  · simp only [Image.getSector, Image.inRange, Image.sector, hk, if_false]
    rw [Memory.read_write_other _ _ _ _ _ _ hk]
    rfl

/-- Formatting an image at a size and a count that R66 allows keeps it well formed. -/
theorem Image.format_keeps_wf {img : Image} {size count : Nat} (hw : img.wf = true) (hs : 1 ≤ size)
    (hc : 1 ≤ count) : (img.format size count).wf = true := by
  obtain ⟨_, h2, _, _, _⟩ := img.wf_iff.1 hw
  exact (Image.wf_iff _).2 ⟨hs, h2, hc, rfl, by simp [Image.format]⟩

/-- Every sector of a formatted image reads as the fill of its size (20_memory.md R67 (a)). -/
theorem Image.format_getSector (img : Image) (size count n : Nat) :
    (img.format size count).getSector n =
      if 1 ≤ n ∧ n ≤ count then
        some (List.replicate ((img.format size count).sectorSize (some n)) Proto.fill) else none := by
  by_cases h : 1 ≤ n ∧ n ≤ count
  · simp [Image.getSector, Image.inRange, Image.format, Image.sector, Memory.read, Image.unlisted, h]
  · have hr : (img.format size count).inRange n = false := by
      refine Bool.eq_false_iff.2 fun hc => h ?_
      rw [Image.inRange, Bool.and_eq_true] at hc
      exact ⟨of_decide_eq_true hc.1, of_decide_eq_true hc.2⟩
    simp [Image.getSector, hr, h]

/-- A handle that accepts a format at a size and count that R66 allows stays well formed. -/
theorem formatted_wf {size count : Nat} (h : Handle) (hw : h.wf = true) (hs : 1 ≤ size) (hc : 1 ≤ count) :
    (h.formatted size count).wf = true := by
  cases h with
  | reference img => exact Image.format_keeps_wf hw hs hc
  | external h => rfl

/-- A fresh default image is well formed when its size and count are at least 1. -/
theorem newDefaultImage_wf (max : Nat) {size count : Nat} (draw : Nat) (hs : 1 ≤ size) (hc : 1 ≤ count) :
    (newDefaultImage max size count draw).wf = true := by
  unfold newDefaultImage
  split
  · rfl
  · exact (Image.wf_iff _).2 ⟨hs, Nat.le_add_left 1 _, hc, rfl, by simp⟩

/-- So is it after the format that creates it. -/
theorem freshImage_wf (c : Config) (draw : Nat) (hs : 1 ≤ c.defaultSectorSize) (hc : 1 ≤ c.defaultSectorCount) :
    (freshImage c draw).wf = true := by
  have h := formatted_wf _ (newDefaultImage_wf c.sectorSizeMax draw hs hc) hs hc
  unfold freshImage
  generalize Handle.formatted _ _ _ = g at h
  cases g with
  | reference img => exact h
  | external g => rfl

/-- The geometry of the default image is the configuration's (00_scope.md R9), and asking for its size, as R157 does after
the format, gives DEFAULT_SECTOR_SIZE. -/
theorem freshImage_size (c : Config) (draw : Nat) :
    ((freshImage c draw).getSectorSize c.sectorSizeMax none).1 = c.defaultSectorSize ∧
    (freshImage c draw).getSectorCount.1 = c.defaultSectorCount := by
  unfold freshImage newDefaultImage
  split <;> exact ⟨rfl, rfl⟩

/-- A call that asks leaves the last write of every sector as it was. -/
theorem lastWrite_asks (c : HandleCall) (l : List HandleCall) (hc : asks c = true) (n : Nat) :
    lastWrite (c :: l) n = lastWrite l n := by
  cases c with
  | getStatusBytes => rfl
  | getSectorSize _ => rfl
  | getSectorCount => rfl
  | getSector _ => rfl
  | putSector _ _ _ _ => cases hc
  | format _ _ _ => cases hc

/-- So do several. -/
theorem lastWrite_append (l m : List HandleCall) (hl : ∀ c ∈ l, asks c = true) (n : Nat) :
    lastWrite (l ++ m) n = lastWrite m n := by
  induction l with
  | nil => rfl
  | cons c rest ih =>
    rw [List.cons_append, lastWrite_asks c _ (hl c List.mem_cons_self)]
    exact ih fun d hd => hl d (List.mem_cons_of_mem c hd)

/-- At reset no slot is bound, so every image behind a slot is well formed. -/
theorem reset_images (d : Drive) (h : Handle) (hd : State.reset.slots[d] = some h) : h.wf = true := by
  simp [State.reset] at hd

end Sys2Proof.Machine
end

