-- ==== Sys2Proof/Laws/Registry.lean ====
section
/-! SUPPORT. The drive port: what each operation can do, said once. -/

namespace Sys2Proof.Machine

/-- A drive's own number names its slot. -/
@[simp] theorem slotOf_drive (d : Drive) : slotOf (d.val : Int) = some d := by
  have h := d.isLt
  unfold slotOf
  rw [if_pos (by omega)]
  simp

/-- An index outside 0..7 names none. -/
theorem slotOf_eq_none {i : Int} (h : i < 0 ∨ 8 ≤ i) : slotOf i = none := by
  unfold slotOf
  rw [if_neg (by omega)]

/-- Reading a slot after one was set. -/
theorem setSlot_get (d e : Drive) (h : Option Handle) (s : State) :
    (setSlot d h s).slots[e] = if e = d then h else s.slots[e] := by
  by_cases hed : e = d
  · subst hed
    simp
  · have : d.val ≠ e.val := fun h => hed (Fin.ext h.symm)
    simp [hed, this]

/-- What a drive-port call leaves unchanged: all of the state but the slots, the drive-port trace and the count of
default images. -/
def portFrame (s t : State) : Prop :=
  t = { s with slots := t.slots, driveTrace := t.driveTrace, draws := t.draws }

/-- A forwarding call on a bound slot. -/
theorem onHandle_bound {α : Type} {op : DriveOp} {d : Drive} {s : State} {h : Handle} (hs : s.slots[d] = some h)
    (f : Drive → Handle → Port α) : onHandle op (d.val : Int) s f = f d h := by
  simp only [onHandle, slotOf_drive, hs]

/-- A forwarding call on an unbound slot. -/
theorem onHandle_unbound {α : Type} {op : DriveOp} {d : Drive} {s : State} (hs : s.slots[d] = none)
    (f : Drive → Handle → Port α) : onHandle op (d.val : Int) s f = fail op .noDrive s := by
  simp only [onHandle, slotOf_drive, hs]

/-- Every answered forwarding call: it failed before a handle, or the bound handle answered it. -/
theorem onHandle_answered {α : Type} {op : DriveOp} {i : Int} {s t : State} {f : Drive → Handle → Port α}
    {a : Answer α} (h : onHandle op i s f = .answered a t) :
    (slotOf i = none ∧ a = .err .invalidDriveIndex ∧ t = logCall op (.err .invalidDriveIndex) s) ∨
    (∃ d, slotOf i = some d ∧ s.slots[d] = none ∧ a = .err .noDrive ∧ t = logCall op (.err .noDrive) s) ∨
    (∃ d hd, slotOf i = some d ∧ s.slots[d] = some hd ∧ f d hd = .answered a t) := by
  unfold onHandle at h
  split at h
  · rename_i hi
    simp only [fail, Port.answered.injEq] at h
    exact .inl ⟨hi, h.1.symm, h.2.symm⟩
  · rename_i d hi
    split at h
    · rename_i hn
      simp only [fail, Port.answered.injEq] at h
      exact .inr (.inl ⟨d, hi, hn, h.1.symm, h.2.symm⟩)
    · rename_i hd hs
      exact .inr (.inr ⟨d, hd, hi, hs, h⟩)

/-- What ending a call does. -/
theorem answer_answered {α : Type} {op : DriveOp} {value : α → DriveValue} {d : Drive} {h : Handle} {a b : Answer α}
    {s t : State} (he : answer op value d h a s = .answered b t) :
    b = a ∧ t = logCall op (a.map value) (setSlot d (some h) s) := by
  simp only [answer, Port.answered.injEq] at he
  exact ⟨he.1.symm, he.2.symm⟩

/-- What calls that ask leave behind: a reference image is the same, any other handle has received those calls. -/
inductive Kept : Handle → Handle → Prop where
  | image (img : Image) : Kept (.reference img) (.reference img)
  | external (h : ExternalHandle) (l : List HandleCall) (hl : ∀ c ∈ l, asks c = true) :
      Kept (.external h) (.external { h with calls := l ++ h.calls })

/-- One call that asks. -/
theorem Kept.called (h : ExternalHandle) (c : HandleCall) (hc : asks c = true) :
    Kept (.external h) (.external (h.called c)) :=
  .external h [c] fun _ hd => List.mem_singleton.1 hd ▸ hc

theorem Kept.wf {a b : Handle} (h : Kept a b) (ha : a.wf = true) : b.wf = true := by
  cases h with
  | image img => exact ha
  | external _ => rfl

theorem getStatusBytes_kept (h : Handle) : Kept h h.getStatusBytes.2 := by
  cases h with
  | reference img => exact .image img
  | external h => exact .called h _ rfl

theorem getSectorSize_kept (max : Nat) (n : Option Nat) (h : Handle) : Kept h (h.getSectorSize max n).2 := by
  cases h with
  | reference img => exact .image img
  | external h => exact .called h _ rfl

theorem getSectorCount_kept (h : Handle) : Kept h h.getSectorCount.2 := by
  cases h with
  | reference img => exact .image img
  | external h => exact .called h _ rfl

theorem getSector_kept (max n : Nat) (h : Handle) : Kept h (h.getSector max n).2 := by
  cases h with
  | reference img =>
    simp only [Handle.getSector]
    split <;> exact .image img
  | external h =>
    simp only [Handle.getSector]
    split <;> exact .called h _ rfl

/-- A handle that stores a sector stays well formed. -/
theorem putSector_wf (n : Nat) (b : List Byte) (size : Nat) (h : Handle) (hw : h.wf = true) :
    (h.putSector n b size).2.wf = true := by
  cases h with
  | reference img =>
    simp only [Handle.putSector]
    split
    · rename_i img' hp
      exact Image.putSector_keeps_wf hw hp
    · exact hw
  | external h =>
    simp only [Handle.putSector]
    split <;> rfl

/-- A handle formatted at a size and count of at least 1 stays well formed. -/
theorem format_wf (size count : Nat) (h : Handle) (hw : h.wf = true) (hs : 1 ≤ size) (hc : 1 ≤ count) :
    (h.format size count).2.wf = true := by
  cases h with
  | reference img => exact Image.format_keeps_wf hw hs hc
  | external h =>
    simp only [Handle.format]
    split <;> rfl

/-- The count a well-formed image reports is at least 1. -/
theorem getSectorCount_pos (img : Image) (hw : (Handle.reference img).wf = true) :
    1 ≤ (Handle.reference img).getSectorCount.1 :=
  ((img.wf_iff).1 hw).2.2.1

/-- What the four reading calls and the size call can do to the registry: nothing but the record of the call and,
for a bound slot, a handle that keeps its store. -/
structure ReadOnlyCall (i : Int) (s t : State) : Prop where
  frame : t = { s with slots := t.slots, driveTrace := t.driveTrace }
  other : ∀ e : Drive, slotOf i ≠ some e → t.slots[e] = s.slots[e]
  unbound : ∀ e : Drive, s.slots[e] = none → t.slots[e] = none
  bound : ∀ (e : Drive) (h : Handle), s.slots[e] = some h → ∃ h', t.slots[e] = some h' ∧ Kept h h'

theorem Kept.refl (h : Handle) : Kept h h := by
  cases h with
  | reference img => exact .image img
  | external h => exact .external h [] (by simp)

theorem logCall_readOnly (i : Int) (op : DriveOp) (r : Answer DriveValue) (s : State) :
    ReadOnlyCall i s (logCall op r s) where
  frame := rfl
  other := fun _ _ => rfl
  unbound := fun _ h => h
  bound := fun _ h hs => ⟨h, hs, Kept.refl h⟩

theorem setSlot_readOnly {i : Int} {d : Drive} (hi : slotOf i = some d) (op : DriveOp) (r : Answer DriveValue)
    {s : State} {h h' : Handle} (hs : s.slots[d] = some h) (hk : Kept h h') :
    ReadOnlyCall i s (logCall op r (setSlot d (some h') s)) where
  frame := rfl
  other := fun e he => by
    have hed : e ≠ d := fun hc => he (hc ▸ hi)
    show (setSlot d (some h') s).slots[e] = _
    rw [setSlot_get, if_neg hed]
  unbound := fun e he => by
    have hed : e ≠ d := fun hc => by
      subst hc
      rw [hs] at he
      cases he
    show (setSlot d (some h') s).slots[e] = _
    rw [setSlot_get, if_neg hed, he]
  bound := fun e g hg => by
    show ∃ x, (setSlot d (some h') s).slots[e] = some x ∧ Kept g x
    rw [setSlot_get]
    by_cases hed : e = d
    · subst hed
      rw [hs] at hg
      cases hg
      exact ⟨h', by simp, hk⟩
    · exact ⟨g, by simp [hed, hg], Kept.refl g⟩

theorem portStatus_spec {i : Int} {s t : State} {a : Answer (Vector Byte 4)}
    (h : portStatus i s = .answered a t) : ReadOnlyCall i s t := by
  rcases onHandle_answered h with ⟨_, _, rfl⟩ | ⟨d, _, _, _, rfl⟩ | ⟨d, hd, hi, hs, hf⟩
  · exact logCall_readOnly _ _ _ _
  · exact logCall_readOnly _ _ _ _
  · obtain ⟨_, rfl⟩ := answer_answered hf
    exact setSlot_readOnly hi _ _ hs (getStatusBytes_kept hd)

theorem portReadSector_spec {i : Int} {n : Sector} {s t : State} {a : Answer (List Byte)}
    (h : portReadSector i n s = .answered a t) : ReadOnlyCall i s t := by
  rcases onHandle_answered h with ⟨_, _, rfl⟩ | ⟨d, _, _, _, rfl⟩ | ⟨d, hd, hi, hs, hf⟩
  · exact logCall_readOnly _ _ _ _
  · exact logCall_readOnly _ _ _ _
  · obtain ⟨_, rfl⟩ := answer_answered hf
    exact setSlot_readOnly hi _ _ hs (getSector_kept _ _ hd)

theorem portSectorCount_spec {i : Int} {s t : State} {a : Answer Nat}
    (h : portSectorCount i s = .answered a t) : ReadOnlyCall i s t := by
  rcases onHandle_answered h with ⟨_, _, rfl⟩ | ⟨d, _, _, _, rfl⟩ | ⟨d, hd, hi, hs, hf⟩
  · exact logCall_readOnly _ _ _ _
  · exact logCall_readOnly _ _ _ _
  · obtain ⟨_, rfl⟩ := answer_answered hf
    exact setSlot_readOnly hi _ _ hs (getSectorCount_kept hd)

/-- `sectorSize` moreover answers with a size the environment may report. -/
theorem portSectorSize_spec {i : Int} {n : Option Sector} {s t : State} {a : Answer Nat}
    (h : portSectorSize i n s = .answered a t) :
    ReadOnlyCall i s t ∧ ∀ len, a = .ok len → sizeOk s len = true := by
  rcases onHandle_answered h with ⟨_, ha, rfl⟩ | ⟨d, _, _, ha, rfl⟩ | ⟨d, hd, hi, hs, hf⟩
  · exact ⟨logCall_readOnly _ _ _ _, fun len he => by simp [ha] at he⟩
  · exact ⟨logCall_readOnly _ _ _ _, fun len he => by simp [ha] at he⟩
  · simp only at hf
    split at hf
    · rename_i hok
      obtain ⟨rfl, rfl⟩ := answer_answered hf
      refine ⟨setSlot_readOnly hi _ _ hs (getSectorSize_kept _ _ hd), fun len he => ?_⟩
      cases he
      exact hok
    · cases hf

/-- What a call that writes the store can do: it touches the one slot, and leaves well-formed images well formed. -/
structure WritingCall (i : Int) (s t : State) : Prop where
  frame : portFrame s t
  other : ∀ e : Drive, slotOf i ≠ some e → t.slots[e] = s.slots[e]
  wf : (∀ (e : Drive) (h : Handle), s.slots[e] = some h → h.wf = true) → s.config.ok = true →
    ∀ (e : Drive) (h : Handle), t.slots[e] = some h → h.wf = true

theorem ReadOnlyCall.writing {i : Int} {s t : State} (h : ReadOnlyCall i s t) : WritingCall i s t where
  frame := by
    have hf := h.frame
    unfold portFrame
    rw [hf]
  other := h.other
  wf := fun hw _ e g hg => by
    cases hs : s.slots[e] with
    | none =>
      rw [h.unbound e hs] at hg
      cases hg
    | some k =>
      obtain ⟨k', hk', hkept⟩ := h.bound e k hs
      rw [hk'] at hg
      cases hg
      exact hkept.wf (hw e k hs)

theorem setSlot_writing {i : Int} {d : Drive} (hi : slotOf i = some d) (op : DriveOp) (r : Answer DriveValue)
    {s u : State} (hu : u = { s with draws := u.draws }) {h' : Handle}
    (hw' : (∀ (e : Drive) (h : Handle), s.slots[e] = some h → h.wf = true) → s.config.ok = true → h'.wf = true) :
    WritingCall i s (logCall op r (setSlot d (some h') u)) where
  frame := by
    unfold portFrame
    rw [hu]
    rfl
  other := fun e he => by
    have hed : e ≠ d := fun hc => he (hc ▸ hi)
    show (setSlot d (some h') u).slots[e] = _
    rw [setSlot_get, if_neg hed, hu]
  wf := fun hw hc e g hg => by
    replace hg : (setSlot d (some h') u).slots[e] = some g := hg
    rw [setSlot_get] at hg
    split at hg
    · cases hg
      exact hw' hw hc
    · rw [hu] at hg
      exact hw e g hg

theorem portWriteSector_spec {i : Int} {n : Sector} {b : List Byte} {s t : State} {a : Answer Unit}
    (h : portWriteSector i n b s = .answered a t) : WritingCall i s t ∧ t.draws = s.draws := by
  rcases onHandle_answered h with ⟨_, _, rfl⟩ | ⟨d, _, _, _, rfl⟩ | ⟨d, hd, hi, hs, hf⟩
  · exact ⟨(logCall_readOnly _ _ _ _).writing, rfl⟩
  · exact ⟨(logCall_readOnly _ _ _ _).writing, rfl⟩
  · simp only at hf
    split at hf
    · obtain ⟨_, rfl⟩ := answer_answered hf
      exact ⟨setSlot_writing hi _ _ rfl fun hw _ =>
        putSector_wf _ _ _ _ ((getSectorSize_kept _ _ hd).wf (hw d hd hs)), rfl⟩
    · cases hf

theorem formatBound_spec {i : Int} {d : Drive} {h : Handle} {s t : State} {a : Answer (List Byte)}
    (hi : slotOf i = some d) (hs : s.slots[d] = some h) (hf : formatBound i d h s = .answered a t) :
    WritingCall i s t := by
  have key : (∀ (e : Drive) (h : Handle), s.slots[e] = some h → h.wf = true) →
      sizeOk s (h.getSectorSize s.config.sectorSizeMax none).1 = true →
      (((h.getSectorSize s.config.sectorSizeMax none).2.getSectorCount.2).format
        (h.getSectorSize s.config.sectorSizeMax none).1
        (h.getSectorSize s.config.sectorSizeMax none).2.getSectorCount.1).2.wf = true := by
    intro hw hsz
    have h1 := hw d h hs
    cases h with
    | reference img =>
      have hpos : 1 ≤ (Handle.getSectorSize s.config.sectorSizeMax none (.reference img)).1 := by
        simp only [sizeOk, Bool.and_eq_true, decide_eq_true_eq] at hsz
        exact hsz.1
      exact format_wf _ _ _ h1 hpos (getSectorCount_pos img h1)
    | external h =>
      simp only [Handle.getSectorSize, Handle.getSectorCount, Handle.format]
      split <;> rfl
  simp only [formatBound] at hf
  split at hf
  · rename_i hok
    split at hf
    · rename_i e h3 he
      obtain ⟨_, rfl⟩ := answer_answered hf
      refine setSlot_writing hi _ _ rfl fun hw _ => ?_
      have := key hw hok
      rwa [he] at this
    · rename_i u h3 he
      split at hf
      · obtain ⟨_, rfl⟩ := answer_answered hf
        refine setSlot_writing hi _ _ rfl fun hw _ => ?_
        have := key hw hok
        rw [he] at this
        exact (getSectorSize_kept _ _ h3).wf this
      · cases hf
  · cases hf

theorem portFormat_spec {i : Int} {s t : State} {a : Answer (List Byte)}
    (h : portFormat i s = .answered a t) : WritingCall i s t := by
  unfold portFormat at h
  split at h
  · simp only [fail, Port.answered.injEq] at h
    exact h.2 ▸ (logCall_readOnly _ _ _ _).writing
  · rename_i d hi
    split at h
    · rename_i hd hs
      exact formatBound_spec hi hs h
    · obtain ⟨_, rfl⟩ := answer_answered h
      refine setSlot_writing (u := { s with draws := s.draws + 1 }) hi _ _ rfl fun _ hc => ?_
      simp only [Config.ok, Bool.and_eq_true, decide_eq_true_eq] at hc
      exact freshImage_wf _ _ hc.1.1.2 hc.2

end Sys2Proof.Machine
end

