-- ==== Sys2Proof/Laws/Transmitter.lean ====
section
/-! SUPPORT. The Response Transmitter: what each operation can do, said once. -/

namespace Sys2Proof.Machine

/-- The lock is free: the engine's sequence is accepted (R221). -/
theorem engineStart_free {s : State} (h : s.txActive = false) (segs : List Segment) (c : Continuation) :
    engineStart segs c s = txAccept segs c s := by
  simp [engineStart, txStart, h]

/-- Another requester holds the lock: the engine's sequence is refused (43_dispatch.md R185). -/
theorem engineStart_held {s : State} (h : s.txActive = true) (segs : List Segment) (c : Continuation) :
    engineStart segs c s = recover (raise (.concurrentWriteViolation .engine) s) := by
  simp [engineStart, txStart, h, recover]

/-- Everything `engineStart` can do. -/
theorem engineStart_cases (segs : List Segment) (c : Continuation) (s : State) :
    (s.txActive = false ∧ engineStart segs c s = txAccept segs c s) ∨
    (s.txActive = true ∧ engineStart segs c s = recover (raise (.concurrentWriteViolation .engine) s)) := by
  cases h : s.txActive with
  | false => exact .inl ⟨rfl, engineStart_free h segs c⟩
  | true => exact .inr ⟨rfl, engineStart_held h segs c⟩

/-- A free lock: an external requester's sequence is accepted and it is told so. -/
theorem externalStart_free {s : State} (h : s.txActive = false) (k : Nat) (segs : List Segment) :
    externalStart k segs s = { txAccept segs .noChange s with replies := s.replies ++ [.txStarted k] } := by
  simp [externalStart, txStart, h]

/-- A held lock: it is refused and told so; nothing else changes (R227). -/
theorem externalStart_held {s : State} (h : s.txActive = true) (k : Nat) (segs : List Segment) :
    externalStart k segs s =
      { raise (.concurrentWriteViolation (.other k)) s with replies := s.replies ++ [.txRefused k] } := by
  simp [externalStart, txStart, h]

/-- Everything a released segment can do (R222): it was the head, its deadline had been reached, and it is handed
over. -/
theorem transmit_next {bytes : List Byte} {s t : State} (h : transmit bytes s = .next t) :
    ∃ g rest, s.txSegs = g :: rest ∧ s.txPhase = .waitDelay ∧ g.bytes = bytes ∧ deadlineOf s g ≤ s.now ∧
      t = emitWrite bytes s := by
  unfold transmit at h
  split at h
  · cases h
  · rename_i g rest hg
    split at h
    · rename_i hc
      split at h
      · rename_i hd
        exact ⟨g, rest, hg, hc.1, hc.2, hd, (Host.Outcome.next.inj h).symm⟩
      · cases h
    · cases h

/-- When a segment is released (R222). -/
theorem transmit_due {s : State} {g : Segment} {rest : List Segment} (hs : s.txSegs = g :: rest)
    (hp : s.txPhase = .waitDelay) (hd : deadlineOf s g ≤ s.now) :
    transmit g.bytes s = .next (emitWrite g.bytes s) := by
  simp [transmit, hs, hp, hd]

/-- The end of a sequence, by its continuation (R226). -/
theorem sequenceComplete_toAwaitingCommand {s : State} (h : s.txCont = .toAwaitingCommand) :
    sequenceComplete s =
      { s with txActive := false, txPhase := .idle, txCont := .noChange, pstate := .awaitingCommand } := by
  simp [sequenceComplete, h, applyContinuation]

theorem sequenceComplete_toAwaitingSectorData {s : State} (h : s.txCont = .toAwaitingSectorData) :
    sequenceComplete s =
      { s with
        txActive := false, txPhase := .idle, txCont := .noChange, pstate := .awaitingSectorData, pbuf := [],
        tRx := s.now } := by
  simp [sequenceComplete, h, applyContinuation]

theorem sequenceComplete_noChange {s : State} (h : s.txCont = .noChange) :
    sequenceComplete s = { s with txActive := false, txPhase := .idle, txCont := .noChange } := by
  simp [sequenceComplete, h, applyContinuation]

/-- More segments follow (R225). -/
theorem segmentComplete_more {s : State} {g g' : Segment} {rest : List Segment} (h : s.txSegs = g :: g' :: rest) :
    segmentComplete s = { s with tRef := s.now, txSegs := g' :: rest, txPhase := .waitDelay } := by
  simp [segmentComplete, h]

/-- The last segment (R225, R226). -/
theorem segmentComplete_last {s : State} {g : Segment} (h : s.txSegs = [g]) :
    segmentComplete s = sequenceComplete { s with tRef := s.now, txSegs := [] } := by
  simp [segmentComplete, h]

/-- Everything `WriteDone` can do (R223): ignored, a drain requested, or the segment complete. -/
theorem writeDone_cases (s : State) :
    writeDone s = s ∨
    (∃ g rest, s.txPhase = .waitWrite ∧ s.txSegs = g :: rest ∧
      ((g.mustDrain = true ∧ writeDone s = { s with txPhase := .waitDrain }) ∨
       (g.mustDrain = false ∧ writeDone s = segmentComplete s))) := by
  unfold writeDone
  split
  · rename_i g rest hp hs
    refine .inr ⟨g, rest, hp, hs, ?_⟩
    cases hm : g.mustDrain <;> simp
  · exact .inl rfl

/-- Everything `DrainDone` can do (R224). -/
theorem drainDone_next {s t : State} (h : drainDone s = .next t) :
    (s.txPhase ≠ .waitDrain ∧ t = s) ∨ (s.txPhase = .waitDrain ∧ s.txQueued = 0 ∧ t = segmentComplete s) := by
  unfold drainDone at h
  split at h
  · rename_i hp
    split at h
    · rename_i hq
      exact .inr ⟨hp, hq, (Host.Outcome.next.inj h).symm⟩
    · cases h
  · rename_i hp
    exact .inl ⟨hp, (Host.Outcome.next.inj h).symm⟩

/-- The flushing of queued bytes (10_state.md R37). -/
theorem flush_next {n : Nat} {s t : State} (h : flush n s = .next t) :
    n ≤ s.txQueued ∧ t = { s with txQueued := s.txQueued - n } := by
  unfold flush at h
  split at h
  · exact ⟨‹_›, (Host.Outcome.next.inj h).symm⟩
  · cases h

/-- The segments of R184 hold what the engine may send. -/
theorem dataSeg_spec {c : Config} {data : List Byte} {drain : Bool} {g : Segment}
    (h : dataSeg c data drain = some g) :
    ∃ k, checksum data = some k ∧ g = ⟨data ++ [k], c.tData, drain⟩ := by
  cases data with
  | nil => simp [dataSeg] at h
  | cons b bs =>
    simp only [dataSeg, dataBlockBytes_cons, Option.map_some, Option.some.injEq] at h
    exact ⟨_, rfl, h.symm⟩

end Sys2Proof.Machine
end

