-- ==== Sys2Proof/Laws/Ops.lean ====
section
/-! SUPPORT. The shared operations of the protocol engine and the meanings of the command frames: what each can do,
said once. -/

namespace Sys2Proof.Machine

/-- The answer of a drive-port call is acted on, or was refused. -/
theorem afterPort_next {α : Type} {d : Drive} {p : Port α} {k : α → State → Result} {t : State}
    (h : afterPort d p k = .next t) :
    (∃ a s, p = .answered (.ok a) s ∧ k a s = .next t) ∨
    (∃ e s, p = .answered (.err e) s ∧ t = abortSilently d e s) := by
  unfold afterPort at h
  split at h
  · exact .inl ⟨_, _, rfl, h⟩
  · exact .inr ⟨_, _, rfl, (Host.Outcome.next.inj h).symm⟩
  · cases h

/-- ACK, COMPLETE and a data block: there is data, and the sequence is offered to the transmitter. -/
theorem sendData_next {data : List Byte} {a b : Bool} {s t : State} (h : sendData data a b s = .next t) :
    ∃ k, checksum data = some k ∧
      t = engineStart [ackSeg s.config a, completeSeg s.config false, ⟨data ++ [k], s.config.tData, b⟩]
        .toAwaitingCommand s := by
  unfold sendData at h
  split at h
  · rename_i g hg
    obtain ⟨k, hk, rfl⟩ := dataSeg_spec hg
    exact ⟨k, hk, (Host.Outcome.next.inj h).symm⟩
  · cases h

/-- The same from left to right: data that is not empty is sent. -/
theorem sendData_cons (x : Byte) (xs : List Byte) (a b : Bool) (s : State) :
    sendData (x :: xs) a b s =
      .next (engineStart [ackSeg s.config a, completeSeg s.config false,
        ⟨(x :: xs) ++ [checksumCons x xs], s.config.tData, b⟩] .toAwaitingCommand s) := by
  simp [sendData, dataSeg]

/-- Everything a command that answers can end in, after the state its drive-port call leaves: silence, or a
sequence offered to the transmitter. -/
inductive CommandEnd (d : Drive) (s : State) : State → Prop where
  | silent (e : DriveError) : CommandEnd d s (abortSilently d e s)
  | answer (x y : Bool) (data : List Byte) (k : Byte) (hk : checksum data = some k) :
      CommandEnd d s (engineStart [ackSeg s.config x, completeSeg s.config false, ⟨data ++ [k], s.config.tData, y⟩]
        .toAwaitingCommand s)
  | arm (n : Sector) (len : Nat) (hl : sizeOk s len = true) :
      CommandEnd d s (engineStart [ackSeg s.config false] .toAwaitingSectorData { s with pw := some ⟨d, n, len⟩ })

/-- Everything a command frame can do (43_dispatch.md R170 to R183, 41_frame_decoder.md R136): nothing but a
diagnostic, or a drive-port call and what follows it. -/
inductive FrameEnd (s : State) : State → Prop where
  | quiet : FrameEnd s (backToAwaiting (acceptFrame s))
  | dropped (m : Diagnostic) : FrameEnd s (backToAwaiting (raise m (acceptFrame s)))
  | bad (b : List Byte) : FrameEnd s (rejectFrame b s)
  | command (d : Drive) (u t : State) (hu : WritingCall d.val (acceptFrame s) u) (ht : CommandEnd d u t) :
      FrameEnd s t

theorem execRead_end {d : Drive} {n : Sector} {s t : State} (h : execRead d n s = .next t) :
    ∃ u, ReadOnlyCall d.val (acceptFrame s) u ∧ CommandEnd d u t := by
  rcases afterPort_next h with ⟨data, u, hp, hk⟩ | ⟨e, u, hp, rfl⟩
  · obtain ⟨k, hsum, rfl⟩ := sendData_next hk
    exact ⟨u, portReadSector_spec hp, .answer _ _ _ _ hsum⟩
  · exact ⟨u, portReadSector_spec hp, .silent e⟩

theorem execStatus_end {d : Drive} {x y : Byte} {s t : State} (h : execStatus d x y s = .next t) :
    ∃ u, ReadOnlyCall d.val (acceptFrame s) u ∧ CommandEnd d u t := by
  rcases afterPort_next h with ⟨data, u, hp, hk⟩ | ⟨e, u, hp, rfl⟩
  · obtain ⟨k, hsum, rfl⟩ := sendData_next hk
    exact ⟨u, portStatus_spec hp, .answer _ _ _ _ hsum⟩
  · exact ⟨u, portStatus_spec hp, .silent e⟩

theorem beginWrite_end {d : Drive} {n : Sector} {s t : State} (h : beginWrite d n s = .next t) :
    ∃ u, ReadOnlyCall d.val (acceptFrame s) u ∧ CommandEnd d u t := by
  rcases afterPort_next h with ⟨len, u, hp, hk⟩ | ⟨e, u, hp, rfl⟩
  · obtain ⟨hr, hl⟩ := portSectorSize_spec hp
    cases hk
    have hl' : sizeOk u len = true := by
      have := hl len rfl
      rw [hr.frame]
      exact this
    exact ⟨u, hr, .arm n len hl'⟩
  · exact ⟨u, (portSectorSize_spec hp).1, .silent e⟩

theorem execFormat_end {d : Drive} {x y : Byte} {s t : State} (h : execFormat d x y s = .next t) :
    ∃ u, WritingCall d.val (acceptFrame s) u ∧ CommandEnd d u t := by
  rcases afterPort_next h with ⟨data, u, hp, hk⟩ | ⟨e, u, hp, rfl⟩
  · obtain ⟨k, hsum, rfl⟩ := sendData_next hk
    exact ⟨u, portFormat_spec hp, .answer _ _ _ _ hsum⟩
  · exact ⟨u, portFormat_spec hp, .silent e⟩

/-- The rows a frame decodes to. -/
theorem decodeFrame_format (dev c a1 a2 k : Byte) : (decodeFrame dev c a1 a2 k).format? = .command := by
  unfold decodeFrame
  split
  · rfl
  · split
    · rfl
    · unfold decodeCommand
      repeat' split
      all_goals rfl

/-- Running a decoded frame inside the receiver is `exec` of it. -/
theorem runFrame_eq_exec (i : Instr) (h : i.format? = .command) (s : State) : runFrame i s = exec i s := by
  cases i <;> first | rfl | exact absurd h (by simp [Instr.format?])

/-- Everything `exec` of a command frame can do. -/
theorem exec_frame_end {i : Instr} (hi : i.format? = .command) {s t : State} (h : exec i s = .next t) :
    FrameEnd s t := by
  cases i with
  | idle d x y => cases h; exact .quiet
  | formatMd d x y => cases h; exact .dropped _
  | poll d x y => cases h; exact .dropped _
  | unsupported d c x y => cases h; exact .dropped _
  | notmine dev c x y => cases h; exact .dropped _
  | badsum dev c x y k => cases h; exact .bad _
  | format d x y => obtain ⟨u, hu, he⟩ := execFormat_end (x := x) (y := y) h; exact .command d u t hu he
  | read d n => obtain ⟨u, hu, he⟩ := execRead_end h; exact .command d u t hu.writing he
  | status d x y => obtain ⟨u, hu, he⟩ := execStatus_end (x := x) (y := y) h; exact .command d u t hu.writing he
  | write d n => obtain ⟨u, hu, he⟩ := beginWrite_end h; exact .command d u t hu.writing he
  | writeVerify d n => obtain ⟨u, hu, he⟩ := beginWrite_end h; exact .command d u t hu.writing he
  | payload data => exact absurd hi (by simp [Instr.format?])
  | ack => exact absurd hi (by simp [Instr.format?])
  | complete => exact absurd hi (by simp [Instr.format?])
  | nak => exact absurd hi (by simp [Instr.format?])
  | err => exact absurd hi (by simp [Instr.format?])
  | dataBlock data => exact absurd hi (by simp [Instr.format?])

end Sys2Proof.Machine
end

