-- ==== Sys2Proof/Laws/PerInstr.lean ====
section
/-! SUPPORT. Lemmas about every instruction as a term, one per constructor. -/

namespace Sys2Proof.Laws.FrameLength

/-- A well-formed instruction has at least one byte, and a command frame has exactly five (30_encoding.md R90, R91). -/
def Statement (i : Instr) : Prop :=
  i.wellFormed = true → 1 ≤ (encode i).length ∧ (i.format? = .command → (encode i).length = Proto.frameLen)

theorem idle (d : Drive) (aux1 aux2 : Byte) : Statement (.idle d aux1 aux2) :=
  fun _ => ⟨Nat.le_add_left 1 4, fun _ => rfl⟩
theorem format (d : Drive) (aux1 aux2 : Byte) : Statement (.format d aux1 aux2) :=
  fun _ => ⟨Nat.le_add_left 1 4, fun _ => rfl⟩
theorem formatMd (d : Drive) (aux1 aux2 : Byte) : Statement (.formatMd d aux1 aux2) :=
  fun _ => ⟨Nat.le_add_left 1 4, fun _ => rfl⟩
theorem poll (d : Drive) (aux1 aux2 : Byte) : Statement (.poll d aux1 aux2) :=
  fun _ => ⟨Nat.le_add_left 1 4, fun _ => rfl⟩
theorem write (d : Drive) (n : Sector) : Statement (.write d n) :=
  fun _ => ⟨Nat.le_add_left 1 4, fun _ => rfl⟩
theorem read (d : Drive) (n : Sector) : Statement (.read d n) :=
  fun _ => ⟨Nat.le_add_left 1 4, fun _ => rfl⟩
theorem status (d : Drive) (aux1 aux2 : Byte) : Statement (.status d aux1 aux2) :=
  fun _ => ⟨Nat.le_add_left 1 4, fun _ => rfl⟩
theorem writeVerify (d : Drive) (n : Sector) : Statement (.writeVerify d n) :=
  fun _ => ⟨Nat.le_add_left 1 4, fun _ => rfl⟩
theorem unsupported (d : Drive) (command aux1 aux2 : Byte) : Statement (.unsupported d command aux1 aux2) :=
  fun _ => ⟨Nat.le_add_left 1 4, fun _ => rfl⟩
theorem notmine (deviceId command aux1 aux2 : Byte) : Statement (.notmine deviceId command aux1 aux2) :=
  fun _ => ⟨Nat.le_add_left 1 4, fun _ => rfl⟩
theorem badsum (deviceId command aux1 aux2 checksum : Byte) : Statement (.badsum deviceId command aux1 aux2 checksum) :=
  fun _ => ⟨Nat.le_add_left 1 4, fun _ => rfl⟩
theorem payload (data : List Byte) : Statement (.payload data) := fun h => by
  cases data with
  | nil => simp [Instr.wellFormed] at h
  | cons b bs => exact ⟨Nat.le_add_left 1 _, fun hc => by simp [Instr.format?] at hc⟩
theorem ack : Statement .ack := fun _ => ⟨Nat.le_refl 1, fun hc => by simp [Instr.format?] at hc⟩
theorem complete : Statement .complete := fun _ => ⟨Nat.le_refl 1, fun hc => by simp [Instr.format?] at hc⟩
theorem nak : Statement .nak := fun _ => ⟨Nat.le_refl 1, fun hc => by simp [Instr.format?] at hc⟩
theorem err : Statement .err := fun _ => ⟨Nat.le_refl 1, fun hc => by simp [Instr.format?] at hc⟩
theorem dataBlock (data : List Byte) : Statement (.dataBlock data) := fun h => by
  cases data with
  | nil => simp [Instr.wellFormed] at h
  | cons b bs =>
    refine ⟨?_, fun hc => by simp [Instr.format?] at hc⟩
    simp [encode]

end Sys2Proof.Laws.FrameLength
end

