-- ==== Sys2Proof/Laws/Step.lean ====
section
/-! SUPPORT. The receiver and the step: what each can do, said once. -/

namespace Sys2Proof.Machine

/-- The gap rule discards the whole buffer or nothing (41_frame_decoder.md R132). -/
theorem dropStaleFrame_cases (gap : Time) (s : State) :
    dropStaleFrame gap s = s ∨
    (s.fbuf ≠ [] ∧ s.config.tFrameGap < gap ∧
      dropStaleFrame gap s = discardFrame (.timeoutFrame s.fbuf) s) := by
  unfold dropStaleFrame
  split
  · rename_i h
    exact .inr ⟨h.1, h.2, rfl⟩
  · exact .inl rfl

/-- Everything the buffer can resolve to (R133 to R136). -/
theorem resolveFrame_cases (s : State) :
    (∃ dev c a1 a2 k, s.fbuf = [dev, c, a1, a2, k] ∧ resolveFrame s = .run (decodeFrame dev c a1 a2 k) s) ∨
    (s.fbuf.length < 5 ∧ resolveFrame s = .done s) ∨
    (5 < s.fbuf.length ∧ resolveFrame s = .done (discardFrame (.framingError .length s.fbuf) s)) := by
  unfold resolveFrame
  split
  · rename_i dev c a1 a2 k h
    exact .inl ⟨dev, c, a1, a2, k, h, rfl⟩
  · rename_i h
    have hne : s.fbuf.length ≠ 5 := by
      intro hl
      match hb : s.fbuf, hl with
      | [a, b, c, d, e], _ => exact h a b c d e hb
    by_cases hlt : s.fbuf.length < 5
    · exact .inr (.inl ⟨hlt, if_pos hlt⟩)
    · exact .inr (.inr ⟨by omega, if_neg hlt⟩)

/-- Everything the Frame Decoder can fetch, with `u` the state after the gap rule: a row of the table, a longer
partial frame, or an over-length. -/
theorem fetchFrame_cases (bytes : List Byte) (gap : Time) (s : State) :
    ∃ u, (u = s ∨ u = discardFrame (.timeoutFrame s.fbuf) s) ∧
      ((∃ dev c a1 a2 k, u.fbuf ++ bytes = [dev, c, a1, a2, k] ∧
          fetchFrame bytes gap s = .run (decodeFrame dev c a1 a2 k) (appendFrame bytes u)) ∨
       ((u.fbuf ++ bytes).length < 5 ∧ fetchFrame bytes gap s = .done (appendFrame bytes u)) ∨
       (5 < (u.fbuf ++ bytes).length ∧
          fetchFrame bytes gap s = .done (discardFrame (.framingError .length (u.fbuf ++ bytes)) u))) := by
  refine ⟨dropStaleFrame gap s, ?_, resolveFrame_cases (appendFrame bytes (dropStaleFrame gap s))⟩
  rcases dropStaleFrame_cases gap s with h | ⟨_, _, h⟩
  · exact .inl h
  · exact .inr h

/-- Everything a step can do: it waits, or the coming event is handled. -/
theorem step_cases {s t : State} (h : step s = .next t) :
    (s.pending = [] ∧ t = s) ∨
    (∃ e rest, s.pending = e :: rest ∧ s.now ≤ e.time ∧ runEvent e.event (takeEvent e rest s) = .next t) := by
  unfold step at h
  split at h
  · rename_i hp
    exact .inl ⟨hp, (Host.Outcome.next.inj h).symm⟩
  · rename_i e rest hp
    split at h
    · cases h
    · rename_i ht
      exact .inr ⟨e, rest, hp, Nat.le_of_not_lt ht, h⟩

/-- The frame a received chunk completes is run by `exec`, in the receiver as in the step. -/
theorem frameDecoder_eq_runFetch (bytes : List Byte) (gap : Time) (s : State) :
    frameDecoder bytes gap s = runFetch (fetchFrame bytes gap s) := by
  obtain ⟨u, _, ⟨dev, c, a1, a2, k, _, h⟩ | ⟨_, h⟩ | ⟨_, h⟩⟩ := fetchFrame_cases bytes gap s
  · unfold frameDecoder runFetch
    rw [h]
    exact runFrame_eq_exec _ (decodeFrame_format dev c a1 a2 k) _
  · simp only [frameDecoder, runFetch, h]
  · simp only [frameDecoder, runFetch, h]

/-- A received chunk is PAYLOAD's meaning in every protocol state: what the step fetches and runs is that. -/
theorem runFetch_received (bytes : List Byte) (s : State) :
    runFetch (fetchReceived bytes s) = execPayload bytes s := by
  unfold fetchReceived execPayload
  cases hp : s.pstate with
  | awaitingCommand => exact (frameDecoder_eq_runFetch _ _ _).symm
  | awaitingSectorData => simp only [runFetch, exec, execPayload, hp]
  | processingCommand => rfl
  | processingData => rfl

/-- The row a segment decodes to has those bytes as its meaning's. -/
theorem exec_segment {bytes : List Byte} {i : Instr} (h : decodeSegment bytes = some i) (s : State) :
    exec i s = transmit bytes s := by
  match bytes, h with
  | [b], h =>
    simp only [decodeSegment] at h
    split at h
    · cases h; subst b; rfl
    · split at h
      · cases h; subst b; rfl
      · split at h
        · cases h; subst b; rfl
        · split at h
          · cases h; subst b; rfl
          · cases h
  | b :: c :: rest, h =>
    simp only [decodeSegment] at h
    split at h
    · rename_i hd
      cases h
      simp only [exec, execDataBlock, hd]
    · cases h

/-- The transmitter's event sends the head segment, whatever row it is. -/
theorem runSegment_eq (s : State) : runSegment s = transmitHead s := by
  unfold runSegment fetchSegment transmitHead
  cases s.txSegs with
  | nil => rfl
  | cons g rest =>
    simp only
    cases hi : decodeSegment g.bytes with
    | none => rfl
    | some i => exact exec_segment hi s

end Sys2Proof.Machine
end

