-- ==== Sys2Proof/Tests/Slice0.lean ====
section
/-! SUPPORT. The model's own tests. Expected results come from 95_test_vectors.md (the vector is named) or are worked
out by hand from the rule named. After them, one witness for the hypotheses of each statement that has any. -/

namespace Sys2Proof.Tests

open Sys2Proof.Machine

/-! ### Ill-formed terms, refused -/

/-- 0x53 has a row of its own. -/
theorem test_unsupported_named : (Instr.unsupported 0 0x53 0 0).wellFormed = false := by decide
/-- 0x31 and 0x38 are honoured. -/
theorem test_notmine_honoured :
    (Instr.notmine 0x31 0x53 0 0).wellFormed = false ∧ (Instr.notmine 0x38 0x53 0 0).wellFormed = false := by decide
/-- 0x84 is the right checksum of EN1. -/
theorem test_badsum_right : (Instr.badsum 0x31 0x53 0 0 0x84).wellFormed = false := by decide
theorem test_payload_empty : (Instr.payload []).wellFormed = false := by decide
theorem test_dataBlock_empty : (Instr.dataBlock []).wellFormed = false := by decide

/-! ### Decoding: words written out bit by bit from the opcode table (EN20, EN16, EN18, EN19, EN14, EN5, EN23, EN15, EN22,
EN27, FD2; the response codes of 30_encoding.md R94; CK24) -/

theorem test_decode_idle : decode .command [0b00110001, 0b00000000, 0b00000000, 0b00000000, 0b00110001] =
    .ok (.idle 0 0 0) := by decide
theorem test_decode_format : decode .command [0b00110001, 0b00100001, 0b00000000, 0b00000000, 0b01010010] =
    .ok (.format 0 0 0) := by decide
theorem test_decode_formatMd : decode .command [0b00110001, 0b00100010, 0b00000000, 0b00000000, 0b01010011] =
    .ok (.formatMd 0 0 0) := by decide
theorem test_decode_poll : decode .command [0b00110001, 0b00111111, 0b00000000, 0b00000000, 0b01110000] =
    .ok (.poll 0 0 0) := by decide
theorem test_decode_write : decode .command [0b00110001, 0b01010000, 0b01101001, 0b00000001, 0b11101011] =
    .ok (.write 0 361) := by decide
theorem test_decode_read : decode .command [0b00110001, 0b01010010, 0b00000000, 0b00000001, 0b10000100] =
    .ok (.read 0 256) := by decide
theorem test_decode_status : decode .command [0b00110001, 0b01010011, 0b11111111, 0b11111111, 0b10000100] =
    .ok (.status 0 0xFF 0xFF) := by decide
theorem test_decode_writeVerify : decode .command [0b00111000, 0b01010111, 0b11010000, 0b00000010, 0b01100010] =
    .ok (.writeVerify 7 720) := by decide
theorem test_decode_unsupported : decode .command [0b00110001, 0b11111111, 0b00000000, 0b00000000, 0b00110001] =
    .ok (.unsupported 0 0xFF 0 0) := by decide
theorem test_decode_notmine : decode .command [0b01000001, 0b01010011, 0b00000000, 0b00000000, 0b10010100] =
    .ok (.notmine 0x41 0x53 0 0) := by decide
theorem test_decode_badsum : decode .command [0b00110001, 0b01010011, 0b00000000, 0b00000000, 0b10000101] =
    .ok (.badsum 0x31 0x53 0 0 0x85) := by decide
theorem test_decode_payload : decode .payload [0b01000001] = .ok (.payload [0x41]) := by decide
theorem test_decode_ack : decode .segment [0b01000001] = .ok .ack := by decide
theorem test_decode_complete : decode .segment [0b01000011] = .ok .complete := by decide
theorem test_decode_nak : decode .segment [0b01001110] = .ok .nak := by decide
theorem test_decode_err : decode .segment [0b01000101] = .ok .err := by decide
theorem test_decode_dataBlock :
    decode .segment [0b00010000, 0b11111111, 0b11100000, 0b00000000, 0b11110000] =
      .ok (.dataBlock [0x10, 0xFF, 0xE0, 0x00]) := by decide

/-- Words that are none of a format. -/
theorem test_decode_rejects :
    decode .command [0x31, 0x53, 0, 0] = .error .frameLength ∧ decode .payload [] = .error .emptyPayload ∧
    decode .segment [0x44] = .error .notAResponse ∧ decode .segment [1, 2] = .error .notAResponse := by decide

/-- The table's numbering: `F` of EN1 and EN6, a handshake byte, a payload byte, a data block. -/
theorem test_tableWords :
    decodeTableWord 40 0x3153000084 = some (.status 0 0 0) ∧
    decodeTableWord 40 0x3152D00256 = some (.read 0 720) ∧
    decodeTableWord 8 0x41 = some .ack ∧ decodeTableWord 8 0x00 = some (.payload [0]) ∧
    decodeTableWord 16 0xDEDE = some (.dataBlock [0xDE]) := by decide

/-- CK6, CK13, CK26, CK28. -/
theorem test_checksum :
    checksum [0xFF, 0x01] = some 0x01 ∧ checksum [0xFF, 0xFF] = some 0xFF ∧
    checksum [0xDE, 0xAD, 0xBE, 0xEF] = some 0x3B ∧ checksum [] = none := by decide

/-! ### One step on small states -/

/-- The timing values of 00_scope.md R9, small sizes, RX_CHUNK_MAX = 8. -/
def cfg : Config :=
  ⟨1000, 200, 400, 10000000, 1000000000, true, false, false, 8, 4, 2, 2⟩

/-- Three sectors, the first a boot sector of one byte, the others of two; sector 2 holds AA BB. -/
def disk : Image := ⟨2, 1, 1, 3, [(2, [0xAA, 0xBB])], #v[0x10, 0xFF, 0xE0, 0x00], true⟩

/-- Reset, with a concrete configuration and the disk in slot 0. -/
def blk : State := { State.reset with config := cfg, slots := (Vector.replicate 8 none).set 0 (some (.reference disk)) }

/-- `s` with an event to come. -/
def coming (t : Time) (e : Event) (s : State) : State := { s with pending := [⟨t, e⟩] }

/-- The state a result goes on in. -/
def out : Result → Option State
  | .next s => some s
  | .fault _ => none
  | .refused _ => none

/-- The transmitter is about to send, or is sending, these segments. -/
def sending (segs : List Segment) (p : TxPhase) (c : Continuation) (s : State) : State :=
  { s with txActive := true, txSegs := segs, txPhase := p, txCont := c }

/-- The receiver is armed for a sector. -/
def armed (n : Sector) (len : Nat) (s : State) : State :=
  { s with pstate := .awaitingSectorData, pw := some ⟨0, n, len⟩ }

/-- DS15. -/
theorem test_idle : (out (exec (.idle 0 0 0) { blk with fbuf := [0x31] })).map (fun t => (t.fbuf, t.diag, t.txActive)) =
    some ([], [], false) := by decide
/-- DS1: the segments and their delays. -/
theorem test_status : (out (exec (.status 0 0 0) blk)).map State.txSegs =
    some [⟨[0x41], 1000, false⟩, ⟨[0x43], 200, false⟩, ⟨[0x10, 0xFF, 0xE0, 0x00, 0xF0], 400, true⟩] := by decide
/-- DS9. -/
theorem test_status_unbound : (out (exec (.status 1 0 0) blk)).map (fun t => (t.diag, t.txActive)) =
    some ([⟨.unknownDrive (.device 0x32) .slotUnbound, 0⟩], false) := by decide
/-- R176: AA + BB = 165, folded 66; the first ACK drains. -/
theorem test_read : (out (exec (.read 0 2) blk)).map State.txSegs =
    some [⟨[0x41], 1000, true⟩, ⟨[0x43], 200, false⟩, ⟨[0xAA, 0xBB, 0x66], 400, false⟩] := by decide
/-- DS22. -/
theorem test_read_zero : (out (exec (.read 0 0) blk)).map (fun t => (t.diag, t.pstate)) =
    some ([⟨.driveFault (.handleError .invalidSector), 0⟩], .awaitingCommand) := by decide
/-- DS5, with the size of this disk; the boot sector has its own. -/
theorem test_write : (out (exec (.write 0 2) blk)).map (fun t => (t.pw, t.txSegs, t.txCont)) =
    some (some ⟨0, 2, 2⟩, [⟨[0x41], 1000, false⟩], .toAwaitingSectorData) := by decide
theorem test_writeVerify_boot : (out (exec (.writeVerify 0 1) blk)).map State.pw = some (some ⟨0, 1, 1⟩) := by decide
/-- DS7, with the size of this disk: the sectors are the fill. -/
theorem test_format : (out (exec (.format 0 0 0) blk)).map (fun t => (t.slots[0], t.txSegs.map Segment.bytes)) =
    some (some (.reference { disk with data := [] }), [[0x41], [0x43], [0xFF, 0xFF, 0xFF]]) := by decide
/-- DS8: two sectors of two bytes are the defaults of this configuration. -/
theorem test_format_unbound : (out (exec (.format 1 0 0) blk)).map (fun t => (t.diag, t.txSegs.map Segment.bytes)) =
    some ([], [[0x41], [0x43], [0xFF, 0xFF, 0xFF]]) := by decide
/-- DS17, DS18, DS19. -/
theorem test_formatMd : (out (exec (.formatMd 0 0 0) blk)).map State.diag =
    some [⟨.unsupportedCommand 0x22 0x31, 0⟩] := by decide
theorem test_poll : (out (exec (.poll 7 0 0) blk)).map State.diag = some [⟨.unsupportedCommand 0x3F 0x38, 0⟩] := by decide
theorem test_unsupported : (out (exec (.unsupported 0 0x4E 0 0) blk)).map State.diag =
    some [⟨.unsupportedCommand 0x4E 0x31, 0⟩] := by decide
/-- DS14. -/
theorem test_notmine : (out (exec (.notmine 0x41 0x53 0 0) blk)).map (fun t => (t.diag, t.driveTrace)) =
    some ([⟨.unknownDrive (.device 0x41) .outOfRange, 0⟩], []) := by decide
/-- FD2, through the step: the fifth byte arrives. -/
theorem test_badsum :
    (out (step (coming 5 (.rxChunk [0x85]) { blk with fbuf := [0x31, 0x53, 0, 0] }))).map (fun t => (t.fbuf, t.diag)) =
      some ([], [⟨.framingError .checksum [0x31, 0x53, 0, 0, 0x85], 5⟩]) := by decide
/-- FD4 and FD5: the gap is exactly T_FRAME_GAP, and one more. -/
theorem test_gap :
    (out (step (coming 10000000 (.rxChunk [0x53]) { blk with fbuf := [0x31] }))).map State.fbuf = some [0x31, 0x53] ∧
    (out (step (coming 10000001 (.rxChunk [0x53]) { blk with fbuf := [0x31] }))).map State.fbuf = some [0x53] := by decide
/-- FD12. -/
theorem test_overlength :
    (out (step (coming 5 (.rxChunk [0x31, 0x53, 0, 0, 0x84, 0x31]) blk))).map (fun t => (t.fbuf, t.diag)) =
      some ([], [⟨.framingError .length [0x31, 0x53, 0, 0, 0x84, 0x31], 5⟩]) := by decide
/-- SW2, with a sector of two bytes. -/
theorem test_payload : (out (exec (.payload [1, 2]) (armed 3 2 blk))).map
      (fun t => (t.slots[0], t.pw, t.pstate, t.txSegs.map Segment.bytes)) =
    some (some (.reference { disk with data := [(2, [0xAA, 0xBB]), (3, [1, 2])] }), none, .processingData,
      [[0x41], [0x43]]) := by decide
/-- SW10, with a sector of two bytes: the diagnostic, and what is stored. -/
theorem test_payload_excess : (out (exec (.payload [1, 2, 3]) (armed 3 2 blk))).map (fun t => (t.diag, t.driveTrace)) =
    some ([⟨.unexpectedData [3] .awaitingSectorData, 0⟩], [⟨.writeSector 0 3 [1, 2], .ok .done⟩]) := by decide
/-- SW4, at the boundary: exactly T_ABORT is accepted, one more starts a frame. -/
theorem test_abort_boundary :
    (out (step (coming 1000000000 (.rxChunk [0x31]) (armed 3 2 blk)))).map (fun t => (t.pbuf, t.fbuf)) =
      some ([0x31], []) ∧
    (out (step (coming 1000000001 (.rxChunk [0x31]) (armed 3 2 blk)))).map (fun t => (t.pbuf, t.fbuf)) =
      some ([], [0x31]) := by decide
/-- TX2 and TX3. -/
theorem test_deadline :
    out (step (coming 999999 .deadline (sending [⟨[0x41], 1000, false⟩] .waitDelay .noChange blk))) = none ∧
    (out (step (coming 1000000 .deadline (sending [⟨[0x41], 1000, false⟩] .waitDelay .noChange blk)))).map
      State.txTrace = some [⟨[0x41], 1000000⟩] := by decide
/-- ACK is refused when another row is the head; COMPLETE, NAK, ERR and a data block are sent when they are. -/
theorem test_rows_sent :
    out (exec .ack (sending [⟨[0x43], 0, false⟩] .waitDelay .noChange blk)) = none ∧
    (out (exec .complete (sending [⟨[0x43], 0, false⟩] .waitDelay .noChange blk))).map State.txQueued = some 1 ∧
    (out (exec .nak (sending [⟨[0x4E], 0, false⟩] .waitDelay .noChange blk))).map State.txQueued = some 1 ∧
    (out (exec .err (sending [⟨[0x45], 0, false⟩] .waitDelay .noChange blk))).map State.txQueued = some 1 ∧
    (out (exec (.dataBlock [1]) (sending [⟨[1, 1], 0, false⟩] .waitDelay .noChange blk))).map State.txQueued =
      some 2 := by decide
/-- TX6 and TX7. -/
theorem test_completion :
    (out (step (coming 9 .drainDone (sending [⟨[0x41], 0, true⟩] .waitDrain .toAwaitingCommand
      { blk with pstate := .processingCommand })))).map (fun t => (t.pstate, t.txActive, t.tRef)) =
        some (.awaitingCommand, false, 9) ∧
    (out (step (coming 9 .writeDone (sending [⟨[0x41], 0, false⟩] .waitWrite .toAwaitingSectorData
      { blk with pstate := .processingCommand })))).map (fun t => (t.pstate, t.txActive, t.tRx)) =
        some (.awaitingSectorData, false, 9) := by decide
/-- 20_memory.md R67 (a): right after a format; U25: any value after a further call. -/
theorem test_known_formatted :
    known [.getSectorSize none, .format 2 2 true] 1 = .formatted ∧
    known [.getStatusBytes, .getSectorSize none, .format 2 2 true] 1 = .nothing ∧
    known [.getSectorSize none, .format 2 2 false] 1 = .nothing := by decide
/-- R67 (b) with R81: an accepted write stands until the next one of its sector or a format. -/
theorem test_known_written :
    known [.getStatusBytes, .putSector 1 [7] false false, .putSector 2 [8] false true, .putSector 1 [9] false true] 1 =
      .written [9] false ∧
    known [.getStatusBytes, .format 2 2 true, .putSector 1 [9] false true] 1 = .nothing := by decide
/-- A word of the table runs as the first instruction after reset: EN1's `F` (slot 0 is unbound), ACK, a payload byte. -/
theorem test_fetchWord :
    (out (step (State.reset.withFetchWord 40 0x3153000084))).map State.diag =
      some [⟨.unknownDrive (.device 0x31) .slotUnbound, 0⟩] ∧
    (out (step (State.reset.withFetchWord 8 0x41))).map State.txTrace = some [⟨[0x41], 0⟩] := by decide

/-! ### Witnesses: concrete states and operands that meet the hypotheses of a statement, one for each clause -/

/-- The two kinds of chunk the step takes: inside the gap at its boundary, and on an empty buffer. -/
def frameState : State := coming 10000000 (.rxChunk [0x84]) { blk with fbuf := [0x31, 0x53, 0, 0] }

/-- An armed receiver, with a chunk to come one nanosecond after T_ABORT. -/
def lateState : State := coming 1000000001 (.rxChunk [0x31]) (armed 3 2 blk)

/-- The engine's STATUS response of which the last segment remains. -/
def answering (p : TxPhase) : State :=
  sending [⟨[1, 1], 0, true⟩] p .toAwaitingCommand { blk with pstate := .processingCommand }

theorem witness_DecodeInvertsEncode :
    (Instr.read 7 65535).wellFormed = true ∧ (Instr.dataBlock [0]).wellFormed = true ∧
    (Instr.badsum 0 0 0 0 1).wellFormed = true ∧ (Instr.unsupported 0 0x51 0 0).wellFormed = true ∧
    (Instr.notmine 0x30 0 0 0).wellFormed = true ∧ (Instr.notmine 0x39 0 0 0).wellFormed = true := by decide

theorem witness_FrameTestsInOrder_refused :
    checksum [0x31, 0x53, 0, 0] ≠ some 0x85 ∧
    (checksum [0x30, 0x53, 0, 0] = some 0x83 ∧ (0x30 : Byte) < 0x31) ∧
    (checksum [0x39, 0x53, 0, 0] = some 0x8C ∧ (0x38 : Byte) < 0x39) := by decide

/-- The named command bytes and an unlisted one, each with its checksum. -/
theorem witness_FrameTestsInOrder_commands :
    checksum [0x31, 0x00, 0, 0] = some 0x31 ∧ checksum [0x31, 0x21, 0, 0] = some 0x52 ∧
    checksum [0x31, 0x22, 0, 0] = some 0x53 ∧ checksum [0x31, 0x3F, 0, 0] = some 0x70 ∧
    checksum [0x31, 0x50, 0, 0] = some 0x81 ∧ checksum [0x31, 0x52, 0, 0] = some 0x83 ∧
    checksum [0x31, 0x53, 0, 0] = some 0x84 ∧ checksum [0x31, 0x57, 0, 0] = some 0x88 ∧
    checksum [0x31, 0x51, 0, 0] = some 0x82 ∧
    (0x51 : Byte) ∉ ([0x00, 0x21, 0x22, 0x3F, 0x50, 0x52, 0x53, 0x57] : List Byte) :=
  ⟨rfl, rfl, rfl, rfl, rfl, rfl, rfl, rfl, rfl, by decide⟩

/-- The lowest and the highest honoured device id, with the least and the greatest sector number. -/
theorem witness_FrameTestsInOrder_operands :
    ((0x31 : Byte) ≤ 0x31 ∧ (0x31 : Byte) ≤ 0x38 ∧ (0 : Drive).val = ((0x31 : Byte) &&& 0x0F).toNat - 1 ∧
      (0 : Sector).toNat = 256 * (0 : Byte).toNat + (0 : Byte).toNat) ∧
    (checksum [0x38, 0x57, 0xFF, 0xFF] = some 0x8F ∧ (0x31 : Byte) ≤ 0x38 ∧ (0x38 : Byte) ≤ 0x38 ∧
      (7 : Drive).val = ((0x38 : Byte) &&& 0x0F).toNat - 1 ∧
      (0xFFFF : Sector).toNat = 256 * (0xFF : Byte).toNat + (0xFF : Byte).toNat) :=
  ⟨⟨by decide, by decide, rfl, rfl⟩, rfl, by decide, by decide, rfl, rfl⟩

theorem witness_ChecksumIsTheFoldedSum : checksum [0xFF] = some 0xFF := by decide

/-- CK2, CK10, CK6: the sum 0, 255, 256. -/
theorem witness_ChecksumClosedForm :
    checksum [0, 0, 0, 0] = some 0 ∧ checksum [0xFF, 0x00] = some 0xFF ∧ checksum [0xFF, 0x01] = some 0x01 := by decide

/-- No other slot of the small machine is bound, and its disk is well formed. -/
theorem blk_images (d : Drive) (h : Handle) (hd : blk.slots[d] = some h) : h.wf = true := by
  revert hd
  have key : ∀ d : Drive, blk.slots[d] = none ∨ blk.slots[d] = some (.reference disk) := by decide
  rcases key d with hk | hk <;> rw [hk] <;> intro hd
  · cases hd
  · cases hd
    decide

theorem frameState_inv : Inv frameState where
  config := by decide
  lock := by decide
  phase := by decide
  cont := by decide
  engine := by decide
  arming := by decide
  pendingWrite := by decide
  pendingLength := fun p hp => by cases hp
  frameShort := by decide
  frameEmpty := by decide
  payloadEmpty := by decide
  payloadShort := fun p hp => by cases hp
  segments := by decide
  engineSegments := fun h => absurd rfl h
  stamps := by decide
  traceOrder := by decide
  images := blk_images
  events := by decide

theorem lateState_inv : Inv lateState where
  config := by decide
  lock := by decide
  phase := by decide
  cont := by decide
  engine := by decide
  arming := by decide
  pendingWrite := by decide
  pendingLength := fun p hp => by cases hp; decide
  frameShort := by decide
  frameEmpty := by decide
  payloadEmpty := by decide
  payloadShort := fun p hp => by cases hp; decide
  segments := by decide
  engineSegments := fun h => absurd rfl h
  stamps := by decide
  traceOrder := by decide
  images := blk_images
  events := by decide

/-- The states with a response in flight, whatever the coming event that binds no handle. -/
theorem answering_inv (p : TxPhase) (hp : p ≠ .idle) (t : Time) (e : Event) (he : e.wf = true) :
    Inv (coming t e (answering p)) where
  config := rfl
  lock := by simp [coming, answering, sending]
  phase := by simp [coming, answering, sending, hp]
  cont := by simp [coming, answering, sending]
  engine := by simp [coming, answering, sending, PState.processing]
  arming := by simp [coming, answering, sending]
  pendingWrite := by simp [coming, answering, sending, blk, State.reset]
  pendingLength := fun p hp => by cases hp
  frameShort := Nat.zero_le 4
  frameEmpty := fun _ => rfl
  payloadEmpty := fun _ => rfl
  payloadShort := fun p hp => by cases hp
  segments := by simp [coming, answering, sending]
  engineSegments := fun _ g hg => by
    rw [List.mem_singleton.1 hg]
    exact .inr (.inr ⟨[1], by decide⟩)
  stamps := ⟨Nat.le_refl 0, Nat.le_refl 0⟩
  traceOrder := ⟨.nil, fun r hr => by cases hr⟩
  images := blk_images
  events := fun x hx => by rw [List.mem_singleton.1 hx]; exact he

theorem witness_EveryStepKeepsTheInvariant : Inv frameState ∧ ∃ t, step frameState = .next t := ⟨frameState_inv, _, rfl⟩

theorem witness_StepRunsTheDecodedFrame :
    frameState.pending = [⟨10000000, .rxChunk [0x84]⟩] ∧ frameState.now ≤ 10000000 ∧
    1 ≤ ([0x84] : List Byte).length ∧ ([0x84] : List Byte).length ≤ frameState.config.rxChunkMax ∧
    frameState.pstate = .awaitingCommand ∧ 10000000 - frameState.tRx ≤ frameState.config.tFrameGap ∧
    decode .command (frameState.fbuf ++ [0x84]) = .ok (.status 0 0 0) := by decide

/-- FD9: on an empty buffer, after a long silence. -/
theorem witness_StepRunsTheDecodedFrame_empty :
    blk.fbuf = [] ∧ ([0x31, 0x53, 0, 0, 0x84] : List Byte).length ≤ blk.config.rxChunkMax ∧
    blk.pstate = .awaitingCommand ∧
    decode .command (blk.fbuf ++ [0x31, 0x53, 0, 0, 0x84]) = .ok (.status 0 0 0) := by decide

theorem witness_StepRunsThePayload :
    lateState.pending = [⟨1000000001, .rxChunk [0x31]⟩] ∧ lateState.now ≤ 1000000001 ∧
    1 ≤ ([0x31] : List Byte).length ∧ ([0x31] : List Byte).length ≤ lateState.config.rxChunkMax ∧
    lateState.pstate = .awaitingSectorData ∧ decode .payload [0x31] = .ok (.payload [0x31]) := by decide

/-- A row of the table at the head, and bytes that are none, due exactly. -/
theorem witness_StepRunsTheHeadSegment :
    ((coming 5 .deadline (answering .waitDelay)).pending = [⟨5, .deadline⟩] ∧
      (answering .waitDelay).now ≤ 5 ∧ (answering .waitDelay).txSegs = [⟨[1, 1], 0, true⟩] ∧
      decode .segment [1, 1] = .ok (.dataBlock [1])) ∧
    ((sending [⟨[1, 2], 1, false⟩] .waitDelay .noChange blk).txSegs = [⟨[1, 2], 1, false⟩] ∧
      (sending [⟨[1, 2], 1, false⟩] .waitDelay .noChange blk).txPhase = .waitDelay ∧
      decode .segment [1, 2] = .error .notAResponse ∧ blk.tRef + 1 * 1000 ≤ 1000) := by decide

theorem witness_EveryStepTakesOneEvent :
    (∃ t, step frameState = .next t) ∧ ∃ t, step blk = .next t := ⟨⟨_, rfl⟩, _, rfl⟩

theorem witness_TracesOnlyGrow :
    (∃ t, step frameState = .next t) ∧ ∀ e rest, frameState.pending = e :: rest → e.event ≠ .reset :=
  ⟨⟨_, rfl⟩, fun e rest h => by cases h; decide⟩

theorem witness_NoRuleReadsTheTraces :
    forgetTraces { frameState with txTrace := [⟨[0x41], 0⟩] } = forgetTraces frameState ∧
    ({ frameState with txTrace := [⟨[0x41], 0⟩] } : State) ≠ frameState := by decide

theorem witness_ProtocolStateTransitions : Inv lateState ∧ ∃ t, step lateState = .next t := ⟨lateState_inv, _, rfl⟩

/-- Four bytes are the longest partial frame. -/
theorem witness_IncompleteFrameWaits :
    1 ≤ ([0] : List Byte).length ∧ ([0] : List Byte).length ≤ blk.config.rxChunkMax ∧
    blk.pstate = .awaitingCommand ∧ 10000000 - blk.tRx ≤ blk.config.tFrameGap ∧
    (([0x31, 0x53, 0] : List Byte) ++ [0]).length < 5 := by decide

/-- A stale byte with four, five and six bytes to come, one nanosecond after T_FRAME_GAP; six bytes on an empty buffer. -/
theorem witness_OldAndLongFramesAreDiscarded :
    ({ blk with fbuf := [0x31] } : State).pstate = .awaitingCommand ∧ ([0x31] : List Byte) ≠ [] ∧
    ({ blk with fbuf := [0x31] } : State).config.tFrameGap < 10000001 - blk.tRx ∧
    (∀ l ∈ ([[1, 2, 3, 4], [1, 2, 3, 4, 5], [1, 2, 3, 4, 5, 6]] : List (List Byte)),
      1 ≤ l.length ∧ l.length ≤ blk.config.rxChunkMax) ∧
    ([1, 2, 3, 4] : List Byte).length < 5 ∧
    blk.fbuf = [] ∧ 5 < (blk.fbuf ++ [1, 2, 3, 4, 5, 6]).length := by decide

theorem witness_UnexpectedDataIsDropped :
    (coming 5 (.rxChunk [1]) (answering .waitDelay)).pstate = .processingCommand ∧
    (coming 5 (.rxChunk [1]) (answering .waitDelay)).pending = [⟨5, .rxChunk [1]⟩] ∧
    ({ answering .waitDelay with pstate := .processingData } : State).pstate = .processingData ∧
    ([1] : List Byte).length ≤ (answering .waitDelay).config.rxChunkMax := by decide

/-- DS17, DS18, EN22, and the highest drive. -/
theorem witness_UndispatchedCommandsAreDropped :
    checksum [0x31 + BitVec.ofNat 8 (0 : Drive).val, 0x22, 0, 0] = some 0x53 ∧
    checksum [0x31 + BitVec.ofNat 8 (7 : Drive).val, 0x3F, 0, 0] = some 0x77 ∧
    checksum [0x31 + BitVec.ofNat 8 (0 : Drive).val, 0xFF, 0, 0] = some 0x31 ∧
    (0xFF : Byte) ∉ ([0x00, 0x21, 0x22, 0x3F, 0x50, 0x52, 0x53, 0x57] : List Byte) := by decide

/-- EN24 and EN25. -/
theorem witness_ForeignDeviceIsIgnored :
    ((0x30 : Byte) < 0x31 ∧ checksum [0x30, 0x53, 0, 0] = some 0x83) ∧
    ((0x38 : Byte) < 0x39 ∧ checksum [0x39, 0x53, 0, 0] = some 0x8C) := by decide

theorem witness_BadChecksumIsDiscarded : checksum [0x31, 0x53, 0, 0] ≠ some 0x85 := by decide

theorem witness_StatusAnswers :
    blk.slots[(7 : Drive)] = none ∧ blk.slots[(0 : Drive)] = some (.reference disk) ∧
    (Handle.reference disk).getStatusBytes = (#v[0x10, 0xFF, 0xE0, 0x00], .reference disk) ∧
    blk.txActive = false := by decide

/-- The last sector of the disk. -/
theorem witness_ReadAnswers :
    blk.slots[(0 : Drive)] = some (.reference disk) ∧ blk.txActive = false ∧
    (Handle.reference disk).getSector blk.config.sectorSizeMax (3 : Sector).toNat =
      (.ok [0xFF, 0xFF], .reference disk) ∧ ([0xFF, 0xFF] : List Byte) ≠ [] := by decide

/-- The boot sector, one byte long. -/
theorem witness_WriteIsAcknowledged :
    blk.slots[(0 : Drive)] = some (.reference disk) ∧ blk.txActive = false ∧
    (Handle.reference disk).getSectorSize blk.config.sectorSizeMax (some (1 : Sector).toNat) = (1, .reference disk) ∧
    1 ≤ blk.config.sectorSizeMax := by decide

theorem witness_FormatAnswersABoundDrive :
    blk.slots[(0 : Drive)] = some (.reference disk) ∧ blk.txActive = false ∧
    (Handle.reference disk).getSectorSize blk.config.sectorSizeMax none = (2, .reference disk) ∧
    (Handle.reference disk).getSectorCount = (3, .reference disk) ∧
    (Handle.reference disk).format 2 3 = (.ok (), .reference { disk with data := [] }) ∧
    (Handle.reference { disk with data := [] }).getSectorSize blk.config.sectorSizeMax none =
      (2, .reference { disk with data := [] }) ∧ 2 ≤ blk.config.sectorSizeMax := by decide

theorem witness_FormatBindsAFreshImage :
    blk.slots[(1 : Drive)] = none ∧ 1 ≤ blk.config.defaultSectorSize ∧ blk.txActive = false := by decide

theorem witness_UnboundSlotIsSilent : blk.slots[(1 : Drive)] = none := by decide

/-- Sector 0, and one beyond the last. -/
theorem witness_HandleRefusalIsSilent :
    blk.slots[(0 : Drive)] = some (.reference disk) ∧
    (Handle.reference disk).getSector blk.config.sectorSizeMax (0 : Sector).toNat =
      (.err (.handleError .invalidSector), .reference disk) ∧
    (Handle.reference disk).getSector blk.config.sectorSizeMax (4 : Sector).toNat =
      (.err (.handleError .invalidSector), .reference disk) := by decide

/-- The small machine while an external requester's sequence is in flight. -/
def busy : State := sending [⟨[0x4E], 0, false⟩] .waitWrite .noChange blk

theorem witness_HeldLockDropsTheResponse :
    busy.txActive = true ∧ busy.slots[(0 : Drive)] = some (.reference disk) ∧
    (Handle.reference disk).getStatusBytes = (disk.status, .reference disk) ∧
    (Handle.reference disk).getSector busy.config.sectorSizeMax (2 : Sector).toNat =
      (.ok [0xAA, 0xBB], .reference disk) ∧
    (Handle.reference disk).getSectorSize busy.config.sectorSizeMax (some (2 : Sector).toNat) =
      (2, .reference disk) := by decide

/-- DS8's drive while the lock is held. -/
theorem witness_HeldLockDropsTheResponse_unbound :
    busy.txActive = true ∧ busy.slots[(1 : Drive)] = none ∧ 1 ≤ busy.config.defaultSectorSize := by decide

theorem witness_HeldLockDropsTheResponse_format :
    (Handle.reference disk).getSectorSize busy.config.sectorSizeMax none = (2, .reference disk) ∧
    (Handle.reference disk).getSectorCount = (3, .reference disk) ∧
    (Handle.reference disk).format 2 3 = (.ok (), .reference { disk with data := [] }) ∧
    (Handle.reference { disk with data := [] }).getSectorSize busy.config.sectorSizeMax none =
      (2, .reference { disk with data := [] }) := by decide

theorem witness_HeldLockDropsTheResponse_payload :
    (armed 2 2 busy).txActive = true ∧ (armed 2 2 busy).slots[(0 : Drive)] = some (.reference disk) ∧
    (armed 2 2 busy).pstate = .awaitingSectorData ∧ (armed 2 2 busy).pw = some ⟨0, 2, 2⟩ ∧
    (armed 2 2 busy).now - (armed 2 2 busy).tRx ≤ (armed 2 2 busy).config.tAbort ∧
    ((armed 2 2 busy).pbuf ++ [0xFF, 0xFF]).length = 2 ∧
    (Handle.reference disk).putSector (2 : Sector).toNat ([0xFF, 0xFF].take 2) 2 =
      (.ok (), .reference { disk with data := [] }) := by decide

theorem witness_SectorNumberIsPassedUnchanged :
    (∃ t, exec (.read 0 65535) blk = .next t) ∧ (∃ t, exec (.write 0 0) blk = .next t) ∧
    (∃ t, exec (.writeVerify 0 720) blk = .next t) := ⟨⟨_, rfl⟩, ⟨_, rfl⟩, _, rfl⟩

/-- With the lock free, and held. -/
theorem witness_CommandFramesLeaveTheRest :
    (Instr.status 0 0 0).format? = .command ∧ (∃ t, exec (.status 0 0 0) blk = .next t) ∧
    busy.txActive = true ∧ ∃ t, exec (.status 0 0 0) busy = .next t := ⟨rfl, ⟨_, rfl⟩, rfl, _, rfl⟩

/-- A READ, a FORMAT of the addressed drive seen from another, and a frame that addresses none. -/
theorem witness_CommandFramesLeaveTheStore :
    ((Instr.read 0 2).format? = .command ∧ (∀ d a1 a2, Instr.read 0 2 ≠ .format d a1 a2) ∧
      ∃ t, exec (.read 0 2) blk = .next t) ∧
    (drive? (.format 0 0 0) ≠ some 7 ∧ ∃ t, exec (.format 0 0 0) blk = .next t) ∧
    drive? (.notmine 0x39 0x21 0 0) ≠ some 0 ∧ ∃ t, exec (.notmine 0x39 0x21 0 0) blk = .next t :=
  ⟨⟨rfl, nofun, _, rfl⟩, ⟨by decide, _, rfl⟩, nofun, _, rfl⟩

/-- The armed receiver at exactly T_ABORT. -/
def dueState : State := { armed 3 2 blk with now := 1000000000 }

theorem witness_IncompletePayloadAccumulates :
    dueState.pstate = .awaitingSectorData ∧ dueState.pw = some ⟨0, 3, 2⟩ ∧
    dueState.now - dueState.tRx ≤ dueState.config.tAbort ∧ (dueState.pbuf ++ [1]).length < 2 := by decide

theorem witness_CompletePayloadIsWritten :
    dueState.pstate = .awaitingSectorData ∧ dueState.pw = some ⟨0, 3, 2⟩ ∧
    dueState.now - dueState.tRx ≤ dueState.config.tAbort ∧ (dueState.pbuf ++ [1, 2]).length = 2 ∧
    dueState.slots[(0 : Drive)] = some (.reference disk) ∧
    (Handle.reference disk).getSectorSize dueState.config.sectorSizeMax (some (3 : Sector).toNat) =
      (2, .reference disk) ∧ 2 ≤ dueState.config.sectorSizeMax ∧
    (Handle.reference disk).putSector (3 : Sector).toNat ((dueState.pbuf ++ [1, 2]).take 2) 2 =
      (.ok (), .reference { disk with data := [(2, [0xAA, 0xBB]), (3, [1, 2])] }) ∧
    dueState.txActive = false := by decide

/-- SW8: the slot unbound meanwhile; SW11: the sector beyond the disk. -/
theorem witness_FailedWriteIsSilent :
    ((armed 4 2 State.reset).slots[(0 : Drive)] = none) ∧
    ((armed 4 2 blk).pw = some ⟨0, 4, 2⟩ ∧ (armed 4 2 blk).slots[(0 : Drive)] = some (.reference disk) ∧
      ((armed 4 2 blk).pbuf ++ [1, 2]).length = 2 ∧
      (Handle.reference disk).getSectorSize (armed 4 2 blk).config.sectorSizeMax (some (4 : Sector).toNat) =
        (2, .reference disk) ∧
      (Handle.reference disk).putSector (4 : Sector).toNat [1, 2] 2 =
        (.err (.handleError .invalidSector), .reference disk)) := by decide

theorem witness_ExcessPayloadIsDropped :
    dueState.pw = some ⟨0, 3, 2⟩ ∧ dueState.now - dueState.tRx ≤ dueState.config.tAbort ∧
    dueState.pbuf.length < 2 ∧ 2 < (dueState.pbuf ++ [1, 2, 3]).length := by decide

theorem witness_LatePayloadStartsAFrame :
    ({ dueState with now := 1000000001 } : State).pstate = .awaitingSectorData ∧
    ({ dueState with now := 1000000001 } : State).pw = some ⟨0, 3, 2⟩ ∧
    dueState.config.tAbort < 1000000001 - dueState.tRx ∧ dueState.fbuf = [] ∧
    ([1, 2, 3, 4] : List Byte).length < 5 := by decide

theorem witness_PayloadWithoutAnAck :
    (answering .waitDelay).pstate = .processingCommand ∧
    ({ answering .waitDelay with pstate := .processingData } : State).pstate = .processingData ∧
    blk.pstate = .awaitingCommand ∧ blk.fbuf = [] ∧ (blk.fbuf ++ [1, 2, 3, 4]).length < 5 := by decide

theorem witness_PayloadStoresOneSector :
    dueState.pstate = .awaitingSectorData ∧ dueState.pw = some ⟨0, 3, 2⟩ ∧
    dueState.now - dueState.tRx ≤ dueState.config.tAbort ∧
    (∃ t, exec (.payload [1, 2]) dueState = .next t) ∧ ∃ t, exec (.payload [1]) dueState = .next t :=
  ⟨by decide, by decide, by decide, ⟨_, rfl⟩, _, rfl⟩

/-- SW5 and SW6, at the boundary. -/
theorem witness_AbortTimeoutDiscardsThePayload :
    (armed 3 2 blk).pstate = .awaitingSectorData ∧ (armed 3 2 blk).pw = some ⟨0, 3, 2⟩ ∧
    (armed 3 2 blk).config.tAbort < 1000000001 - (armed 3 2 blk).tRx ∧
    1000000000 - (armed 3 2 blk).tRx ≤ (armed 3 2 blk).config.tAbort := by decide

theorem witness_BothAbortDetectionsAgree :
    Inv lateState ∧ lateState.pstate = .awaitingSectorData ∧
    lateState.pending = [⟨1000000001, .rxChunk [0x31]⟩] ∧ lateState.now ≤ 1000000001 ∧
    lateState.config.tAbort < 1000000001 - lateState.tRx :=
  ⟨lateState_inv, by decide, by decide, by decide, by decide⟩

/-- The deadline of a segment with a delay of 1 µs, reached exactly, and one for each row. -/
theorem witness_SegmentsAreSentWhenDue :
    (sending [⟨[0x41], 1, false⟩] .waitDelay .noChange { blk with now := 1000 }).txPhase = .waitDelay ∧
    blk.tRef + 1 * 1000 ≤ 1000 ∧
    (sending [⟨[0x4E], 0, false⟩] .waitDelay .noChange blk).txSegs = [⟨[0x4E], 0, false⟩] ∧
    checksum [1] = some 1 ∧ ([1] ++ [1] : List Byte) = [1, 1] := by decide

theorem witness_NothingIsSentBeforeItsDeadline :
    ∃ t, step (coming 5 .deadline (answering .waitDelay)) = .next t ∧
      t.txTrace.length > (coming 5 .deadline (answering .waitDelay)).txTrace.length := ⟨_, rfl, by decide⟩

theorem witness_EngineSendsNoErrorCode :
    Inv (coming 5 .deadline (answering .waitDelay)) ∧
    (coming 5 .deadline (answering .waitDelay)).txCont ≠ .noChange ∧
    ∃ t, step (coming 5 .deadline (answering .waitDelay)) = .next t ∧
      t.txTrace.length > (coming 5 .deadline (answering .waitDelay)).txTrace.length :=
  ⟨answering_inv _ (by decide) _ _ rfl, by decide, _, rfl, by decide⟩

/-- A segment sent, and a sequence accepted. -/
theorem witness_SequencesAreNotInterleaved :
    (Inv (coming 5 .deadline (answering .waitDelay)) ∧
      ∃ t, step (coming 5 .deadline (answering .waitDelay)) = .next t) ∧
    (Inv frameState ∧ frameState.txActive = false ∧ ∃ t, step frameState = .next t ∧ t.txActive = true) :=
  ⟨⟨answering_inv _ (by decide) _ _ rfl, _, rfl⟩, frameState_inv, by decide, _, rfl, by decide⟩

theorem witness_WriteDoneEndsTheWrite :
    (coming 5 .writeDone (answering .waitWrite)).pending = [⟨5, .writeDone⟩] ∧
    (answering .waitDelay).txPhase ≠ .waitWrite ∧ (answering .waitWrite).txPhase = .waitWrite ∧
    (answering .waitWrite).txSegs = [⟨[1, 1], 0, true⟩] ∧
    (sending [⟨[0x41], 0, false⟩, ⟨[0x43], 0, false⟩] .waitWrite .noChange blk).txPhase = .waitWrite := by decide

/-- Each way the last segment completes, each continuation, and the draining segment at `WriteDone`. -/
theorem witness_LastSegmentReleasesTheLock :
    (answering .waitWrite).txSegs = [⟨[1, 1], 0, true⟩] ∧ (answering .waitWrite).txPhase = .waitWrite ∧
    (answering .waitDrain).txPhase = .waitDrain ∧ (answering .waitDrain).txQueued = 0 ∧
    (answering .waitDrain).txCont = .toAwaitingCommand ∧
    (sending [⟨[0x41], 0, false⟩] .waitWrite .toAwaitingSectorData blk).txSegs = [⟨[0x41], 0, false⟩] ∧
    (sending [⟨[0x41], 0, false⟩] .waitWrite .toAwaitingSectorData blk).txCont = .toAwaitingSectorData ∧
    busy.txSegs = [⟨[0x4E], 0, false⟩] ∧ busy.txPhase = .waitWrite ∧ busy.txCont = .noChange := by decide

theorem witness_DrainDoneEndsTheDrain :
    (coming 5 .drainDone (answering .waitDrain)).pending = [⟨5, .drainDone⟩] ∧
    (answering .waitWrite).txPhase ≠ .waitDrain ∧ ({ answering .waitDrain with txQueued := 1 } : State).txQueued ≠ 0 ∧
    (sending [⟨[0x41], 0, true⟩, ⟨[0x43], 0, false⟩] .waitDrain .noChange blk).txQueued = 0 := by decide

/-- As many bytes as are queued, and one more. -/
theorem witness_DrainDoneEndsTheDrain_flushed :
    (coming 5 (.flushed 2) { blk with txQueued := 2 }).pending = [⟨5, .flushed 2⟩] ∧ blk.now ≤ 5 ∧
    2 ≤ ({ blk with txQueued := 2 } : State).txQueued ∧ ({ blk with txQueued := 2 } : State).txQueued < 3 := by decide

theorem witness_DrainBlocksProgress :
    Inv (coming 5 .drainDone (answering .waitDrain)) ∧ (answering .waitDrain).txPhase = .waitDrain ∧
    (∃ t, step (coming 5 .drainDone (answering .waitDrain)) = .next t) ∧
    Inv (coming 5 .writeDone (answering .waitDrain)) ∧
    ∃ t, step (coming 5 .writeDone (answering .waitDrain)) = .next t :=
  ⟨answering_inv _ (by decide) _ _ rfl, rfl, ⟨_, rfl⟩, answering_inv _ (by decide) _ _ rfl, _, rfl⟩

theorem witness_SecondSequenceIsRefused :
    busy.txActive = true ∧ (coming 5 (.txStart 1 [⟨[0x43], 0, false⟩]) busy).pending =
      [⟨5, .txStart 1 [⟨[0x43], 0, false⟩]⟩] ∧ ([⟨[0x43], 0, false⟩] : List Segment) ≠ [] ∧
    ∀ g ∈ ([⟨[0x43], 0, false⟩] : List Segment), g.bytes ≠ [] := by decide

theorem witness_FreeLockIsTaken :
    blk.txActive = false ∧ (coming 5 (.txStart 1 [⟨[0x43], 0, false⟩]) blk).pending =
      [⟨5, .txStart 1 [⟨[0x43], 0, false⟩]⟩] ∧ ∀ g ∈ ([⟨[0x43], 0, false⟩] : List Segment), g.bytes ≠ [] := by decide

theorem witness_EventsOfTheEnvironment :
    (coming 5 (.transportError 1) blk).pending = [⟨5, .transportError 1⟩] ∧
    (coming 5 .reset busy).pending = [⟨5, .reset⟩] ∧ blk.now ≤ 5 ∧ busy.now ≤ 5 := by decide

/-- The indices where the clauses meet: −1, 0, 7, 8. -/
theorem witness_BindValidatesItsIndex :
    ((-1 : Int) < 0) ∧ (8 : Int) ≤ 8 ∧ (0 : Int) = ((0 : Drive).val : Int) ∧ (7 : Int) = ((7 : Drive).val : Int) ∧
    (coming 5 (.bind 7 (.reference disk)) blk).pending = [⟨5, .bind 7 (.reference disk)⟩] ∧
    (coming 5 (.unbind 8) blk).pending = [⟨5, .unbind 8⟩] := by decide

/-- A format and a read after it; a write that is accepted; a status. -/
theorem witness_RegistryKeepsItsPromises :
    (∃ s1 s2, portFormat ((0 : Drive).val : Int) blk = .answered (.ok [0xFF, 0xFF]) s1 ∧
      portReadSector ((0 : Drive).val : Int) 1 s1 = .answered (.ok [0xFF]) s2) ∧
    (∃ s1, portWriteSector ((0 : Drive).val : Int) 3 [1, 2, 3] blk = .answered (.ok ()) s1) ∧
    blk.slots[(0 : Drive)] = some (.reference disk) ∧
    ∃ s1, portStatus 0 blk = .answered (.ok disk.status) s1 := ⟨⟨_, _, rfl, rfl⟩, ⟨_, rfl⟩, by decide, _, rfl⟩

theorem witness_PortValidatesItsIndex : ((-1 : Int) < 0 ∨ (8 : Int) ≤ -1) ∧ ((8 : Int) < 0 ∨ (8 : Int) ≤ 8) := by decide

end Sys2Proof.Tests
end

/-! PROOFS. The family 30_encoding.md: the assembly of the sector number and the drive-port call that carries it. -/

namespace Sys2Proof.Machine

/-! ### The sector number -/

/-- R97: the two aux bytes fill disjoint halves of the word, so the `|` is a sum. -/
theorem sectorOf_toNat (a1 a2 : Byte) : (sectorOf a1 a2).toNat = 256 * a2.toNat + a1.toNat := by
  have h1 : a1.toNat < 2 ^ 8 := a1.isLt
  have h2 : a2.toNat < 2 ^ 8 := a2.isLt
  have hfit : a2.toNat <<< 8 < 65536 := by rw [Nat.shiftLeft_eq]; omega
  calc (sectorOf a1 a2).toNat
      = a2.toNat <<< 8 ||| a1.toNat := by
        simp (disch := omega) [sectorOf, Nat.mod_eq_of_lt]
    _ = a2.toNat <<< 8 + a1.toNat := (Nat.shiftLeft_add_eq_or_of_lt h1 _).symm
    _ = 256 * a2.toNat + a1.toNat := by rw [Nat.shiftLeft_eq]; omega

/-! ### The record of one drive-port call -/

/-- From `s` to `t` the drive-port trace grew by exactly one record, of the call `op`, whatever its result. -/
def logsCall (op : DriveOp) (s t : State) : Prop :=
  ∃ r, t.driveTrace = s.driveTrace ++ [⟨op, r⟩]

theorem logCall_logsCall (op : DriveOp) (r : Answer DriveValue) (s : State) : logsCall op s (logCall op r s) :=
  ⟨r, rfl⟩

/-- Ending a call on a handle records that call. -/
theorem answer_logsCall {α : Type} {op : DriveOp} {value : α → DriveValue} {d : Drive} {h : Handle} {a b : Answer α}
    {s t : State} (he : answer op value d h a s = .answered b t) : logsCall op s t := by
  obtain ⟨_, rfl⟩ := answer_answered he
  exact ⟨a.map value, rfl⟩

/-- A forwarding call records its own operation: on each of its two failures, and wherever the bound handle's part
does. -/
theorem onHandle_logsCall {α : Type} {op : DriveOp} {i : Int} {s t : State} {f : Drive → Handle → Port α}
    {a : Answer α} (h : onHandle op i s f = .answered a t)
    (hf : ∀ d hd, f d hd = .answered a t → logsCall op s t) : logsCall op s t := by
  rcases onHandle_answered h with ⟨_, _, rfl⟩ | ⟨_, _, _, _, rfl⟩ | ⟨d, hd, _, _, hcall⟩
  · exact logCall_logsCall _ _ _
  · exact logCall_logsCall _ _ _
  · exact hf d hd hcall

theorem portReadSector_logsCall {i : Int} {n : Sector} {s t : State} {a : Answer (List Byte)}
    (h : portReadSector i n s = .answered a t) : logsCall (.readSector i n) s t :=
  onHandle_logsCall h fun _ _ hcall => answer_logsCall hcall

theorem portSectorSize_logsCall {i : Int} {n : Option Sector} {s t : State} {a : Answer Nat}
    (h : portSectorSize i n s = .answered a t) : logsCall (.sectorSize i n) s t := by
  refine onHandle_logsCall h fun d hd hcall => ?_
  simp only at hcall
  split at hcall
  · exact answer_logsCall hcall
  · cases hcall

/-! ### After the call no other is made -/

@[simp] theorem engineStart_driveTrace (segs : List Segment) (c : Continuation) (s : State) :
    (engineStart segs c s).driveTrace = s.driveTrace := by
  rcases engineStart_cases segs c s with ⟨_, h⟩ | ⟨_, h⟩ <;> rw [h] <;> rfl

theorem sendData_driveTrace {data : List Byte} {a b : Bool} {s t : State} (h : sendData data a b s = .next t) :
    t.driveTrace = s.driveTrace := by
  obtain ⟨_, _, rfl⟩ := sendData_next h
  exact engineStart_driveTrace _ _ _

/-- A dispatch rule that makes one drive-port call from the accepted frame, and whose continuation makes none, records
that call and nothing else. -/
theorem afterPort_logsCall {α : Type} {op : DriveOp} {d : Drive} {p : Port α} {k : α → State → Result} {s t : State}
    (h : afterPort d p k = .next t) (hp : ∀ a u, p = .answered a u → logsCall op (acceptFrame s) u)
    (hk : ∀ a u, k a u = .next t → t.driveTrace = u.driveTrace) : logsCall op s t := by
  rcases afterPort_next h with ⟨a, u, hcall, hnext⟩ | ⟨e, u, hcall, rfl⟩
  · obtain ⟨r, hr⟩ := hp _ _ hcall
    exact ⟨r, (hk a u hnext).trans hr⟩
  · obtain ⟨r, hr⟩ := hp _ _ hcall
    exact ⟨r, hr⟩

theorem execRead_logsCall {d : Drive} {n : Sector} {s t : State} (h : execRead d n s = .next t) :
    logsCall (.readSector d.val n) s t :=
  afterPort_logsCall h (fun _ _ => portReadSector_logsCall) fun _ _ => sendData_driveTrace

theorem beginWrite_logsCall {d : Drive} {n : Sector} {s t : State} (h : beginWrite d n s = .next t) :
    logsCall (.sectorSize d.val (some n)) s t :=
  afterPort_logsCall h (fun _ _ => portSectorSize_logsCall) fun len u hk => by
    cases hk
    exact engineStart_driveTrace _ _ _

/-- Settles O33: READ records the `readSector` of its own sector number, WRITE and WRITE_VERIFY the `sectorSize`. -/
theorem sectorNumberIsPassedUnchanged : Obligations.SectorNumberIsPassedUnchanged :=
  ⟨sectorOf_toNat, fun _ _ _ _ => ⟨execRead_logsCall, beginWrite_logsCall, beginWrite_logsCall⟩⟩

end Sys2Proof.Machine

/-! PROOFS. The family 40_checksum.md: the checksum of a list with one more byte. -/

namespace Sys2Proof.Machine

/-- The loop runs from the left, so a byte appended at the end is its last step (40_checksum.md R120). -/
theorem checksumFrom_concat (sum : Nat) (bs : List Byte) (b : Byte) :
    checksumFrom sum (bs ++ [b]) = foldCarry (checksumFrom sum bs) b := by
  induction bs generalizing sum with
  | nil => rfl
  | cons _ _ ih => exact ih _

/-- The checksum byte is the loop's exact sum: nothing is cut off (40_checksum.md R121). -/
theorem checksumCons_toNat (b : Byte) (bs : List Byte) : (checksumCons b bs).toNat = checksumFrom b.toNat bs := by
  have hle : checksumFrom b.toNat bs ≤ 255 := checksumFrom_le _ bs (Nat.le_of_lt_succ b.isLt)
  exact (BitVec.toNat_ofNat _ 8).trans (Nat.mod_eq_of_lt (Nat.lt_succ_of_le hle))

theorem checksumCons_concat_toNat (a : Byte) (bs : List Byte) (b : Byte) :
    (checksumCons a (bs ++ [b])).toNat = foldCarry (checksumCons a bs).toNat b := by
  rw [checksumCons_toNat, checksumCons_toNat, checksumFrom_concat]

/-- R120's start: on one byte the loop does not run. -/
theorem checksum_singleton (b : Byte) : checksum [b] = some b :=
  congrArg some (BitVec.eq_of_toNat_eq (checksumCons_toNat b []))

/-- Settles O5: the loop folds a byte appended at the end in last, and every sum fits a byte, so the byte read back is
the sum itself. -/
theorem checksumIsTheFoldedSum : Obligations.ChecksumIsTheFoldedSum := by
  refine ⟨checksum_singleton, fun l b c hc => ?_⟩
  cases l with
  | nil => cases hc
  | cons a bs =>
    cases hc
    exact ⟨checksumCons a (bs ++ [b]), rfl, checksumCons_concat_toNat a bs b⟩

end Sys2Proof.Machine

/-! PROOFS. The family 41_frame_decoder.md: the step on a received chunk, the partial frame that stays in the buffer,
and the frame with a bad checksum. -/

namespace Sys2Proof.Machine

/-! ### The step on a received chunk -/

/-- An event that is due is taken off the list and handled. -/
theorem step_due {s : State} {e : TimedEvent} {rest : List TimedEvent} (hp : s.pending = e :: rest)
    (ht : s.now ≤ e.time) : step s = runEvent e.event (takeEvent e rest s) := by
  unfold step
  rw [hp]
  exact if_neg (Nat.not_lt.mpr ht)

/-- A received chunk that is due and of a length R130 allows is fetched and run. -/
theorem step_rxChunk {s : State} {t : Time} {bytes : List Byte} {rest : List TimedEvent}
    (hp : s.pending = ⟨t, .rxChunk bytes⟩ :: rest) (ht : s.now ≤ t) (h1 : 1 ≤ bytes.length)
    (hmax : bytes.length ≤ s.config.rxChunkMax) :
    step s = runFetch (fetchReceived bytes (takeEvent ⟨t, .rxChunk bytes⟩ rest s)) := by
  have hok : chunkOk bytes (takeEvent ⟨t, .rxChunk bytes⟩ rest s) = true := by simp [chunkOk, takeEvent, h1, hmax]
  exact (step_due hp ht).trans (if_pos hok)

/-- In AwaitingCommand the chunk goes to the Frame Decoder, with the gap measured before `t_rx` is stamped. -/
theorem fetchReceived_awaitingCommand {s : State} (h : s.pstate = .awaitingCommand) (bytes : List Byte) :
    fetchReceived bytes s = fetchFrame bytes (s.now - s.tRx) (stampConsumed s) := by
  unfold fetchReceived
  rw [h]

/-! ### The partial frame -/

/-- Within the gap rule nothing is discarded (41_frame_decoder.md R132). -/
theorem dropStaleFrame_fresh {gap : Time} {s : State} (h : s.fbuf = [] ∨ gap ≤ s.config.tFrameGap) :
    dropStaleFrame gap s = s := by
  rcases dropStaleFrame_cases gap s with hkeep | ⟨hne, hgap, _⟩
  · exact hkeep
  · exact absurd h (not_or_intro hne (Nat.not_le_of_lt hgap))

/-- Below five bytes the buffer waits (R133). -/
theorem resolveFrame_incomplete {s : State} (h : s.fbuf.length < 5) : resolveFrame s = .done s := by
  rcases resolveFrame_cases s with ⟨dev, c, a1, a2, k, hb, _⟩ | ⟨_, hwait⟩ | ⟨hlong, _⟩
  · exact absurd (congrArg List.length hb) (Nat.ne_of_lt h)
  · exact hwait
  · omega

theorem fetchFrame_incomplete {bytes : List Byte} {gap : Time} {s : State}
    (hgap : s.fbuf = [] ∨ gap ≤ s.config.tFrameGap) (h : (s.fbuf ++ bytes).length < 5) :
    fetchFrame bytes gap s = .done (appendFrame bytes s) := by
  unfold fetchFrame
  rw [dropStaleFrame_fresh hgap]
  exact resolveFrame_incomplete h

/-- Settles O18: the chunk is due and of an allowed length, so the Frame Decoder takes it; the gap rule keeps the
buffer, and the appended bytes make no frame. -/
theorem incompleteFrameWaits : Obligations.IncompleteFrameWaits := by
  intro s t bytes rest hp ht h1 hmax hstate hgap hlen
  let u := takeEvent ⟨t, .rxChunk bytes⟩ rest s
  have hu : u.pstate = .awaitingCommand := hstate
  calc step s
      = runFetch (fetchReceived bytes u) := step_rxChunk hp ht h1 hmax
    _ = runFetch (fetchFrame bytes (t - s.tRx) (stampConsumed u)) :=
        congrArg runFetch (fetchReceived_awaitingCommand hu bytes)
    _ = runFetch (.done (appendFrame bytes (stampConsumed u))) := congrArg runFetch (fetchFrame_incomplete hgap hlen)

/-! ### The bad checksum -/

/-- The checksum is tested before the device id and the command byte (R135, R136). -/
theorem decodeFrame_badChecksum {dev c a1 a2 k : Byte} (h : checksum [dev, c, a1, a2] ≠ some k) :
    decodeFrame dev c a1 a2 k = .badsum dev c a1 a2 k := by
  have hk : frameChecksum dev c a1 a2 ≠ k := fun he => h (congrArg some he)
  exact if_pos hk

/-- Settles O24: the frame decodes to BADSUM, whose meaning discards the buffer with its diagnostic. -/
theorem badChecksumIsDiscarded : Obligations.BadChecksumIsDiscarded := by
  intro s dev c a1 a2 k h
  have hdecode : decode .command [dev, c, a1, a2, k] = .ok (.badsum dev c a1 a2 k) :=
    congrArg Except.ok (decodeFrame_badChecksum h)
  have hexec : exec (.badsum dev c a1 a2 k) s = .next (rejectFrame [dev, c, a1, a2, k] s) := rfl
  exact ⟨hdecode, hexec⟩

end Sys2Proof.Machine

namespace Sys2Proof.Tests

open Sys2Proof.Machine

/-- One state with all the hypotheses of O18: three bytes stand in the buffer, and a fourth comes exactly
T_FRAME_GAP after the last. -/
theorem incompleteFrameWaits_at_the_gap :
    step (coming 10000000 (.rxChunk [0]) { blk with fbuf := [0x31, 0x53, 0] }) =
      .next { blk with now := 10000000, tRx := 10000000, tRef := 10000000, fbuf := [0x31, 0x53, 0, 0] } :=
  incompleteFrameWaits _ 10000000 [0] [] rfl (by decide) (by decide) (by decide) rfl (.inr (by decide)) (by decide)

end Sys2Proof.Tests

/-! PROOFS. The family 42_drive_registry.md: what `bind` does to the registry, and the step that delivers it. -/

namespace Sys2Proof.Machine

theorem bindSlot_of_outside {i : Int} (hi : i < 0 ∨ 8 ≤ i) (h : Handle) (s : State) :
    bindSlot i h s = { s with replies := s.replies ++ [.bound (.err .invalidDriveIndex)] } := by
  unfold bindSlot
  rw [slotOf_eq_none hi]

/-- The slot's previous content, a handle or none, plays no part (42_drive_registry.md R151). -/
theorem bindSlot_drive (d : Drive) (h : Handle) (s : State) :
    bindSlot d.val h s =
      { s with slots := s.slots.set d (some h), replies := s.replies ++ [.bound (.ok ())] } := by
  unfold bindSlot
  rw [slotOf_drive]
  rfl

theorem step_bind {s : State} {t : Time} {i : Int} {h : Handle} {rest : List TimedEvent}
    (hp : s.pending = ⟨t, .bind i h⟩ :: rest) (ht : s.now ≤ t) :
    step s = .next (bindSlot i h (takeEvent ⟨t, .bind i h⟩ rest s)) :=
  step_due hp ht

/-- Settles O57: the due `bind` is handled by `bindSlot`, whose index either names no slot or names slot `d`. -/
theorem bindValidatesItsIndex : Obligations.BindValidatesItsIndex := by
  intro s t i h rest hp ht
  let u := takeEvent ⟨t, .bind i h⟩ rest s
  have hstep : step s = .next (bindSlot i h u) := step_bind hp ht
  constructor
  · intro houtside
    exact hstep.trans (congrArg _ (bindSlot_of_outside houtside h u))
  · rintro d rfl
    exact hstep.trans (congrArg _ (bindSlot_drive d h u))

end Sys2Proof.Machine

/-! PROOFS. The family 43_dispatch.md: what a valid frame decodes to, the commands that are dropped, and the dispatch
rules STATUS, WRITE and WRITE_VERIFY from their drive-port call to the sequence they start. -/

namespace Sys2Proof.Machine

/-! ### The frame with a right checksum -/

theorem driveOf_deviceIdOf : ∀ d : Drive, driveOf (deviceIdOf d) = d := by decide

theorem honoured_deviceIdOf : ∀ d : Drive, honoured (deviceIdOf d) = true := by decide

/-- An id below 0x31 or above 0x38 fails the range test (30_encoding.md R98). -/
theorem honoured_of_foreign {dev : Byte} (h : dev < 0x31 ∨ 0x38 < dev) : honoured dev = false := by
  rcases h with hlo | hhi
  · have hnot : ¬ Proto.devLo ≤ dev := BitVec.not_le.mpr hlo
    simp [honoured, hnot]
  · have hnot : ¬ dev ≤ Proto.devHi := BitVec.not_le.mpr hhi
    simp [honoured, hnot]

/-- After the checksum the device id is tested, before the command byte (30_encoding.md R98). -/
theorem decodeFrame_foreign {dev c a1 a2 k : Byte} (hsum : checksum [dev, c, a1, a2] = some k)
    (hdev : honoured dev = false) : decodeFrame dev c a1 a2 k = .notmine dev c a1 a2 := by
  have hk : frameChecksum dev c a1 a2 = k := Option.some.inj hsum
  exact (if_neg (not_not_intro hk)).trans (if_pos hdev)

/-- A valid frame of drive `d` is the row of its command byte (30_encoding.md R96, R99). -/
theorem decodeFrame_drive {d : Drive} {c a1 a2 k : Byte} (hsum : checksum [deviceIdOf d, c, a1, a2] = some k) :
    decodeFrame (deviceIdOf d) c a1 a2 k = decodeCommand d c a1 a2 := by
  have hk : frameChecksum (deviceIdOf d) c a1 a2 = k := Option.some.inj hsum
  unfold decodeFrame
  rw [if_neg (not_not_intro hk), honoured_deviceIdOf, driveOf_deviceIdOf]
  rfl

theorem decode_drive {d : Drive} {c a1 a2 k : Byte} (hsum : checksum [deviceIdOf d, c, a1, a2] = some k) :
    decode .command [deviceIdOf d, c, a1, a2, k] = .ok (decodeCommand d c a1 a2) :=
  congrArg Except.ok (decodeFrame_drive hsum)

/-- Each of the eight tests of R99 fails on a byte that is not listed (43_dispatch.md R183). -/
theorem decodeCommand_unlisted {c : Byte} (hc : c ∉ namedCommands) (d : Drive) (a1 a2 : Byte) :
    decodeCommand d c a1 a2 = .unsupported d c a1 a2 := by
  simp only [namedCommands, List.mem_cons, List.not_mem_nil, or_false, not_or] at hc
  obtain ⟨hIdle, hFormat, hFormatMd, hPoll, hWrite, hRead, hStatus, hWriteVerify⟩ := hc
  simp only [decodeCommand, hIdle, hFormat, hFormatMd, hPoll, hWrite, hRead, hStatus, hWriteVerify, if_false]

/-! ### The frames that are dropped -/

/-- The whole effect of `Unsupported(frame)` (43_dispatch.md R173). -/
theorem unsupportedCommand_eq (c dev : Byte) (s : State) :
    unsupportedCommand c dev s = { s with
      fbuf := [], pstate := .awaitingCommand, diag := s.diag ++ [⟨.unsupportedCommand c dev, s.now⟩] } := rfl

/-- Settles O22: the command byte alone picks the row of a valid frame, and each of the three rows means
`Unsupported(frame)`. -/
theorem undispatchedCommandsAreDropped : Obligations.UndispatchedCommandsAreDropped := by
  intro s d c a1 a2 k hsum
  have hdecode := decode_drive hsum
  refine ⟨?formatMd, ?poll, fun hc => ?unlisted⟩
  case formatMd =>
    rintro rfl
    exact ⟨hdecode, congrArg Host.Outcome.next (unsupportedCommand_eq _ _ s)⟩
  case poll =>
    rintro rfl
    exact ⟨hdecode, congrArg Host.Outcome.next (unsupportedCommand_eq _ _ s)⟩
  case unlisted =>
    exact ⟨hdecode.trans (congrArg _ (decodeCommand_unlisted hc d a1 a2)),
      congrArg Host.Outcome.next (unsupportedCommand_eq c _ s)⟩

/-- Settles O23: the device id is tested before the command byte, and NOTMINE means its diagnostic. -/
theorem foreignDeviceIsIgnored : Obligations.ForeignDeviceIsIgnored := by
  intro s dev c a1 a2 k hdev hsum
  have hdecode : decodeFrame dev c a1 a2 k = .notmine dev c a1 a2 :=
    decodeFrame_foreign hsum (honoured_of_foreign hdev)
  have hexec : exec (.notmine dev c a1 a2) s =
      .next (backToAwaiting (raise (.unknownDrive (.device dev) .outOfRange) (acceptFrame s))) := rfl
  exact ⟨congrArg Except.ok hdecode, hexec⟩

/-! ### The drive-port calls of STATUS and WRITE -/

theorem portStatus_unbound {d : Drive} {s : State} (hs : s.slots[d] = none) :
    portStatus d.val s = .answered (.err .noDrive) (logCall (.status d.val) (.err .noDrive) s) :=
  onHandle_unbound hs _

theorem portStatus_bound {d : Drive} {s : State} {h h' : Handle} {st : Vector Byte 4} (hs : s.slots[d] = some h)
    (hst : h.getStatusBytes = (st, h')) :
    portStatus d.val s =
      .answered (.ok st) (logCall (.status d.val) (.ok (.bytes st.toList)) (setSlot d (some h') s)) := by
  unfold portStatus
  rw [onHandle_bound hs, hst]
  rfl

/-- A size the environment may report (92_eei_decisions.md D24) is answered. -/
theorem portSectorSize_bound {d : Drive} {n : Sector} {s : State} {h h' : Handle} {len : Nat}
    (hs : s.slots[d] = some h) (hsize : h.getSectorSize s.config.sectorSizeMax (some n.toNat) = (len, h'))
    (hok : sizeOk s len = true) :
    portSectorSize d.val (some n) s =
      .answered (.ok len) (logCall (.sectorSize d.val (some n)) (.ok (.number len)) (setSlot d (some h') s)) := by
  unfold portSectorSize
  rw [onHandle_bound hs, Option.map_some, hsize]
  exact if_pos hok

/-! ### The sequences they start -/

/-- Data with a checksum is sent after ACK and COMPLETE when the lock is free (43_dispatch.md R184, R185). -/
theorem sendData_free {data : List Byte} {c : Byte} {s : State} (hc : checksum data = some c)
    (hfree : s.txActive = false) (x y : Bool) :
    sendData data x y s = .next (txAccept
      [ackSeg s.config x, completeSeg s.config false, ⟨data ++ [c], s.config.tData, y⟩] .toAwaitingCommand s) := by
  cases data with
  | nil => cases hc
  | cons b bs =>
    cases hc
    exact (sendData_cons b bs x y s).trans (congrArg _ (engineStart_free hfree _ _))

/-- A list that is not empty has a checksum (40_checksum.md R120, R123). -/
theorem checksum_of_ne_nil {data : List Byte} (h : data ≠ []) : ∃ c, checksum data = some c := by
  obtain ⟨b, bs, rfl⟩ := List.exists_cons_of_ne_nil h
  exact ⟨_, checksum_cons b bs⟩

theorem execStatus_unbound {d : Drive} {s : State} (hs : s.slots[d] = none) (a1 a2 : Byte) :
    execStatus d a1 a2 s =
      .next (abortSilently d .noDrive (logCall (.status d.val) (.err .noDrive) (acceptFrame s))) := by
  unfold execStatus
  rw [portStatus_unbound (s := acceptFrame s) hs]
  rfl

theorem execStatus_bound {d : Drive} {s : State} {h h' : Handle} {st : Vector Byte 4} (hs : s.slots[d] = some h)
    (hst : h.getStatusBytes = (st, h')) (a1 a2 : Byte) :
    execStatus d a1 a2 s = sendData st.toList false true
      (logCall (.status d.val) (.ok (.bytes st.toList)) (setSlot d (some h') (acceptFrame s))) := by
  unfold execStatus
  rw [portStatus_bound (s := acceptFrame s) hs hst]
  rfl

/-- Settles O25: the call fails on an unbound slot and is aborted; on a bound one its four bytes have a checksum, and
the free lock takes the three segments. -/
theorem statusAnswers : Obligations.StatusAnswers := by
  intro s d a1 a2
  refine ⟨fun hs => execStatus_unbound hs a1 a2, fun h h' st hs hst hfree => ?_⟩
  have hne : st.toList ≠ [] := List.ne_nil_of_length_pos (by simp)
  obtain ⟨c, hc⟩ := checksum_of_ne_nil hne
  let u := logCall (.status d.val) (.ok (.bytes st.toList)) (setSlot d (some h') (acceptFrame s))
  have hu : u.txActive = false := hfree
  exact ⟨c, hc, (execStatus_bound hs hst a1 a2).trans (sendData_free hc hu false true)⟩

/-- On a bound drive with the lock free the size reported is held in `pw` and the ACK is started alone
(43_dispatch.md R177). -/
theorem beginWrite_bound {d : Drive} {n : Sector} {s : State} {h h' : Handle} {len : Nat} (hs : s.slots[d] = some h)
    (hsize : h.getSectorSize s.config.sectorSizeMax (some n.toNat) = (len, h')) (hok : sizeOk s len = true)
    (hfree : s.txActive = false) :
    beginWrite d n s = .next (txAccept [ackSeg s.config false] .toAwaitingSectorData
      { logCall (.sectorSize d.val (some n)) (.ok (.number len)) (setSlot d (some h') (acceptFrame s)) with
        pw := some ⟨d, n, len⟩ }) := by
  unfold beginWrite
  rw [portSectorSize_bound (s := acceptFrame s) hs hsize hok]
  let u := logCall (.sectorSize d.val (some n)) (.ok (.number len)) (setSlot d (some h') (acceptFrame s))
  have hu : { u with pw := some ⟨d, n, len⟩ }.txActive = false := hfree
  exact congrArg Host.Outcome.next (engineStart_free hu _ _)

/-- Settles O27: WRITE and WRITE_VERIFY are both `beginWrite`, whose size call a size within 1..SECTOR_SIZE_MAX
answers. -/
theorem writeIsAcknowledged : Obligations.WriteIsAcknowledged := by
  intro s d n
  refine ⟨rfl, fun h h' len i hi hs hsize hpos hmax hfree => ?_⟩
  have hexec : exec i s = beginWrite d n s := by
    rcases hi with rfl | rfl <;> rfl
  have hok : sizeOk s len = true := by simp [sizeOk, hpos, hmax]
  exact hexec.trans (beginWrite_bound hs hsize hok hfree)

end Sys2Proof.Machine

/-! PROOFS. The family 44_sector_write_receiver.md: the chunk an armed receiver takes within the abort threshold, and
the write it completes, from the drive-port call to the handshake. -/

namespace Sys2Proof.Machine

/-! ### The armed receiver -/

/-- Up to and including T_ABORT of silence the chunk is payload (44_sector_write_receiver.md R201). -/
theorem execPayload_armed {s : State} {p : PendingWrite} (hstate : s.pstate = .awaitingSectorData)
    (hpw : s.pw = some p) (hgap : s.now - s.tRx ≤ s.config.tAbort) (bytes : List Byte) :
    execPayload bytes s = accumulate p bytes (stampConsumed s) := by
  have harmed : (stampConsumed s).pw = some p := hpw
  unfold execPayload sectorWriteReceiver
  rw [hstate, harmed]
  exact if_neg (Nat.not_lt.mpr hgap)

/-- Below the expected length the buffer waits (R202). -/
theorem accumulate_incomplete {s : State} {p : PendingWrite} {bytes : List Byte}
    (h : (s.pbuf ++ bytes).length < p.len) : accumulate p bytes s = .next { s with pbuf := s.pbuf ++ bytes } :=
  if_pos h

/-- At exactly the expected length the whole buffer is handed on and no byte is left over (R203, R207). -/
theorem accumulate_complete {s : State} {p : PendingWrite} {bytes : List Byte}
    (h : (s.pbuf ++ bytes).length = p.len) : accumulate p bytes s = persist p (s.pbuf ++ bytes) s := by
  have htake : (s.pbuf ++ bytes).take p.len = s.pbuf ++ bytes := List.take_of_length_le (Nat.le_of_eq h)
  have hdrop : (s.pbuf ++ bytes).drop p.len = [] := List.drop_of_length_le (Nat.le_of_eq h)
  unfold accumulate
  rw [if_neg (Nat.not_lt.mpr (Nat.le_of_eq h.symm)), htake, hdrop]
  exact congrArg (persist p _) (if_pos rfl)

/-- Settles O36: the armed receiver takes the chunk, and the buffer it makes is below the expected length. -/
theorem incompletePayloadAccumulates : Obligations.IncompletePayloadAccumulates := by
  intro s bytes p hstate hpw hgap hlen
  exact (execPayload_armed hstate hpw hgap bytes).trans (accumulate_incomplete (s := stampConsumed s) hlen)

/-! ### The write of a complete payload -/

/-- On a bound slot that reports a size the environment may report (92_eei_decisions.md D24), the call answers what the
handle answers to the clipped bytes (42_drive_registry.md R155). -/
theorem portWriteSector_bound {d : Drive} {n : Sector} {bytes : List Byte} {s : State} {h h1 h2 : Handle} {size : Nat}
    {a : Answer Unit} (hs : s.slots[d] = some h)
    (hsize : h.getSectorSize s.config.sectorSizeMax (some n.toNat) = (size, h1)) (hok : sizeOk s size = true)
    (hput : h1.putSector n.toNat (bytes.take size) size = (a, h2)) :
    portWriteSector d.val n bytes s =
      .answered a (logCall (.writeSector d.val n bytes) (a.map fun _ => .done) (setSlot d (some h2) s)) := by
  unfold portWriteSector
  rw [onHandle_bound hs, hsize]
  simp only [hok, hput, if_true, answer]

/-- A write that succeeds with the lock free starts ACK and COMPLETE (44_sector_write_receiver.md R204). -/
theorem writeSucceeded_free {s : State} (hfree : s.txActive = false) :
    writeSucceeded s = txAccept [ackSeg s.config false, completeSeg s.config s.config.writeDoneDrain]
      .toAwaitingCommand { s with pw := none } :=
  engineStart_free (s := { s with pw := none }) hfree _ _

/-- What `persist` does once its drive-port call has succeeded (R203, R204). -/
theorem persist_of_written {p : PendingWrite} {payload : List Byte} {s t : State}
    (hport : portWriteSector p.drive.val p.sector payload { s with pbuf := [], pstate := .processingData } =
      .answered (.ok ()) t) : persist p payload s = .next (writeSucceeded t) := by
  unfold persist
  rw [hport]

/-- Settles O37: the armed receiver takes the chunk, the whole buffer goes to the drive port, the handle's acceptance
ends the pending write, and the free lock takes the two segments. -/
theorem completePayloadIsWritten : Obligations.CompletePayloadIsWritten := by
  intro s bytes p h h1 h2 size hstate hpw hgap hlen hs hsize hpos hmax hput hfree
  let u : State := { stampConsumed s with pbuf := [], pstate := .processingData }
  let t := logCall (.writeSector p.drive.val p.sector (s.pbuf ++ bytes)) (.ok .done) (setSlot p.drive (some h2) u)
  have hok : sizeOk u size = true := by simp [sizeOk, u, stampConsumed, hpos, hmax]
  have hport : portWriteSector p.drive.val p.sector (s.pbuf ++ bytes) u = .answered (.ok ()) t :=
    portWriteSector_bound (s := u) hs hsize hok hput
  have hunlocked : t.txActive = false := hfree
  calc exec (.payload bytes) s
      = accumulate p bytes (stampConsumed s) := execPayload_armed hstate hpw hgap bytes
    _ = persist p (s.pbuf ++ bytes) (stampConsumed s) := accumulate_complete (s := stampConsumed s) hlen
    _ = .next (writeSucceeded t) := persist_of_written hport
    _ = .next (txAccept [ackSeg s.config false, completeSeg s.config s.config.writeDoneDrain] .toAwaitingCommand
          { t with pw := none }) := congrArg Host.Outcome.next (writeSucceeded_free hunlocked)

end Sys2Proof.Machine

namespace Sys2Proof.Tests

open Sys2Proof.Machine

/-- The clip of 42_drive_registry.md R155 at work: of a payload of three bytes, recorded whole in the drive-port trace,
a handle that by then reports two keeps the first two. -/
theorem completePayloadIsWritten_clipped :
    exec (.payload [1, 2, 3]) (armed 3 3 blk) = .next { armed 3 3 blk with
      pbuf := [], pw := none, pstate := .processingData,
      slots := blk.slots.set 0 (some (.reference { disk with data := [(2, [0xAA, 0xBB]), (3, [1, 2])] })),
      driveTrace := [⟨.writeSector 0 3 [1, 2, 3], .ok .done⟩],
      txActive := true, txPhase := .waitDelay, txCont := .toAwaitingCommand,
      txSegs := [⟨[0x41], 1000, false⟩, ⟨[0x43], 200, false⟩] } :=
  completePayloadIsWritten (armed 3 3 blk) [1, 2, 3] ⟨0, 3, 3⟩ (.reference disk) (.reference disk) _ 2 (by decide)
    (by decide) (by decide) (by decide) (by decide) (by decide) (by decide) (by decide) rfl (by decide)

end Sys2Proof.Tests

/-! PROOFS. The family 45_response_transmitter.md: the end of the last segment, by `WriteDone` or by `DrainDone`, and
the sequence offered while the lock is held. -/

namespace Sys2Proof.Machine

/-! ### The end of a segment -/

/-- A draining segment is not complete when its bytes are queued (45_response_transmitter.md R223). -/
theorem writeDone_draining {s : State} {g : Segment} {segs : List Segment} (hphase : s.txPhase = .waitWrite)
    (hs : s.txSegs = g :: segs) (hm : g.mustDrain = true) : writeDone s = { s with txPhase := .waitDrain } := by
  simp [writeDone, hphase, hs, hm]

/-- Any other segment is (R223). -/
theorem writeDone_complete {s : State} {g : Segment} {segs : List Segment} (hphase : s.txPhase = .waitWrite)
    (hs : s.txSegs = g :: segs) (hm : g.mustDrain = false) : writeDone s = segmentComplete s := by
  simp [writeDone, hphase, hs, hm]

/-- The confirmed flush completes the draining segment (R224). -/
theorem drainDone_flushed {s : State} (hphase : s.txPhase = .waitDrain) (hq : s.txQueued = 0) :
    drainDone s = .next (segmentComplete s) := by
  simp [drainDone, hphase, hq]

theorem step_writeDone {s : State} {t : Time} {rest : List TimedEvent} (hp : s.pending = ⟨t, .writeDone⟩ :: rest)
    (ht : s.now ≤ t) : step s = .next (writeDone (takeEvent ⟨t, .writeDone⟩ rest s)) :=
  step_due hp ht

theorem step_drainDone {s : State} {t : Time} {rest : List TimedEvent} (hp : s.pending = ⟨t, .drainDone⟩ :: rest)
    (ht : s.now ≤ t) : step s = drainDone (takeEvent ⟨t, .drainDone⟩ rest s) :=
  step_due hp ht

/-- The two ways in which a step completes the head segment (R223, R224). -/
theorem step_completes_segment {s : State} {t : Time} {e : Event} {rest : List TimedEvent} {g : Segment}
    {segs : List Segment} (hp : s.pending = ⟨t, e⟩ :: rest) (ht : s.now ≤ t) (hs : s.txSegs = g :: segs)
    (hdone : (e = .writeDone ∧ s.txPhase = .waitWrite ∧ g.mustDrain = false) ∨
      (e = .drainDone ∧ s.txPhase = .waitDrain ∧ s.txQueued = 0)) :
    step s = .next (segmentComplete (takeEvent ⟨t, e⟩ rest s)) := by
  rcases hdone with ⟨rfl, hphase, hm⟩ | ⟨rfl, hphase, hq⟩
  · let u := takeEvent ⟨t, .writeDone⟩ rest s
    exact (step_writeDone hp ht).trans (congrArg _ (writeDone_complete (s := u) hphase hs hm))
  · let u := takeEvent ⟨t, .drainDone⟩ rest s
    exact (step_drainDone hp ht).trans (drainDone_flushed (s := u) hphase hq)

/-- With no continuation to apply, the end of a sequence only releases the lock (R226). -/
theorem sequenceComplete_noChange_keeps {s : State} (h : s.txCont = .noChange) :
    sequenceComplete s = { s with txActive := false, txPhase := .idle } := by
  rw [sequenceComplete_noChange h, ← h]

/-- Settles O50: a draining segment waits at `WriteDone`; otherwise the step completes the segment, which is the last,
and the sequence ends as its continuation says. -/
theorem lastSegmentReleasesTheLock : Obligations.LastSegmentReleasesTheLock := by
  intro s t e g rest hp ht hs
  constructor
  · rintro rfl hphase hm
    let u := takeEvent ⟨t, .writeDone⟩ rest s
    exact (step_writeDone hp ht).trans (congrArg _ (writeDone_draining (s := u) hphase hs hm))
  · intro hdone
    let u := takeEvent ⟨t, e⟩ rest s
    let v : State := { u with tRef := t, txSegs := [] }
    have hstep : step s = .next (sequenceComplete v) :=
      (step_completes_segment hp ht hs hdone).trans (congrArg _ (segmentComplete_last (s := u) hs))
    refine ⟨fun hc => ?_, fun hc => ?_, fun hc => ?_⟩
    · exact hstep.trans (congrArg _ (sequenceComplete_toAwaitingCommand (s := v) hc))
    · exact hstep.trans (congrArg _ (sequenceComplete_toAwaitingSectorData (s := v) hc))
    · exact hstep.trans (congrArg _ (sequenceComplete_noChange_keeps (s := v) hc))

/-! ### The sequence offered -/

/-- A held lock refuses every requester alike (R227). -/
theorem txStart_held {s : State} (h : s.txActive = true) (req : Requester) (segs : List Segment)
    (cont : Continuation) : txStart req segs cont s = (false, raise (.concurrentWriteViolation req) s) :=
  if_pos h

theorem sequenceOk_of_nonempty {segs : List Segment} (hne : segs ≠ []) (hbytes : ∀ g ∈ segs, g.bytes ≠ []) :
    sequenceOk segs = true := by
  simpa [sequenceOk, hne] using hbytes

/-- An external requester's sequence that is one (R219) is offered to the lock. -/
theorem step_txStart {s : State} {t : Time} {k : Nat} {segs : List Segment} {rest : List TimedEvent}
    (hp : s.pending = ⟨t, .txStart k segs⟩ :: rest) (ht : s.now ≤ t) (hok : sequenceOk segs = true) :
    step s = .next (externalStart k segs (takeEvent ⟨t, .txStart k segs⟩ rest s)) :=
  (step_due hp ht).trans (if_pos hok)

/-- Settles O53: the held lock refuses the start with its diagnostic alone, and the due offer of an external requester
is such a start, with the refusal told. -/
theorem secondSequenceIsRefused : Obligations.SecondSequenceIsRefused := by
  refine ⟨fun req segs cont s hheld => txStart_held hheld req segs cont, ?_⟩
  intro s t k segs rest hp ht hne hbytes hheld
  let u := takeEvent ⟨t, .txStart k segs⟩ rest s
  exact (step_txStart hp ht (sequenceOk_of_nonempty hne hbytes)).trans
    (congrArg _ (externalStart_held (s := u) hheld k segs))

end Sys2Proof.Machine

/-! PROOFS. The encodings and the checksum: every row of the opcode table against the decoder in both directions, and
the closed form of the checksum. -/

namespace Sys2Proof.Machine

/-! ### The operands -/

/-- The honoured device ids are those of the eight drives (30_encoding.md R96, R98). -/
theorem exists_drive_of_honoured {dev : Byte} (h : honoured dev = true) : ∃ d : Drive, dev = deviceIdOf d := by
  have hrange : 0x31 ≤ dev.toNat ∧ dev.toNat ≤ 0x38 := by
    simpa [honoured, Proto.devLo, Proto.devHi, BitVec.le_def] using h
  refine ⟨⟨dev.toNat - 0x31, by omega⟩, BitVec.eq_of_toNat_eq ?_⟩
  simp [deviceIdOf, Proto.devLo]
  omega

theorem honoured_of_range {dev : Byte} (hlo : 0x31 ≤ dev) (hhi : dev ≤ 0x38) : honoured dev = true := by
  unfold honoured
  exact Bool.and_eq_true_iff.2 ⟨decide_eq_true hlo, decide_eq_true hhi⟩

/-- `(deviceId & 0xF) − 1` of a drive's own id is that drive (R96, R106). -/
theorem deviceIdOf_index : ∀ d : Drive, (deviceIdOf d &&& 0x0F).toNat - 1 = d.val := by decide

theorem sectorOf_eq {a1 a2 : Byte} {n : Sector} (h : n.toNat = 256 * a2.toNat + a1.toNat) : sectorOf a1 a2 = n :=
  BitVec.eq_of_toNat_eq ((sectorOf_toNat a1 a2).trans h.symm)

/-- The two aux bytes of a sector number are put together to it again (R97, R106). -/
theorem sectorOf_aux (n : Sector) : sectorOf (aux1Of n) (aux2Of n) = n := by
  have hn : n.toNat < 65536 := n.isLt
  refine sectorOf_eq ?_
  simp only [aux1Of, aux2Of, BitVec.extractLsb'_toNat, Nat.shiftRight_eq_div_pow]
  omega

theorem aux1Of_sectorOf (a1 a2 : Byte) : aux1Of (sectorOf a1 a2) = a1 := by
  have h1 : a1.toNat < 256 := a1.isLt
  refine BitVec.eq_of_toNat_eq ?_
  simp only [aux1Of, BitVec.extractLsb'_toNat, sectorOf_toNat, Nat.shiftRight_eq_div_pow]
  omega

theorem aux2Of_sectorOf (a1 a2 : Byte) : aux2Of (sectorOf a1 a2) = a2 := by
  have h1 : a1.toNat < 256 := a1.isLt
  have h2 : a2.toNat < 256 := a2.isLt
  refine BitVec.eq_of_toNat_eq ?_
  simp only [aux2Of, BitVec.extractLsb'_toNat, sectorOf_toNat, Nat.shiftRight_eq_div_pow]
  omega

/-! ### From an instruction to its bytes and back -/

/-- The frame the encoder writes for a drive carries its own checksum, so it decodes by its command byte. -/
theorem decode_encodeFrame (d : Drive) (c a1 a2 : Byte) :
    decode .command (encodeFrame (deviceIdOf d) c a1 a2) = .ok (decodeCommand d c a1 a2) :=
  decode_drive rfl

/-- The same for a row whose operand is a sector. -/
theorem decode_encodeFrame_sector {d : Drive} {c : Byte} {row : Sector → Instr}
    (hrow : ∀ a1 a2, decodeCommand d c a1 a2 = row (sectorOf a1 a2)) (n : Sector) :
    decode .command (encodeFrame (deviceIdOf d) c (aux1Of n) (aux2Of n)) = .ok (row n) := by
  rw [decode_encodeFrame, hrow, sectorOf_aux]

/-- Data followed by its checksum is at least two bytes, so no handshake byte, and is known by its checksum (R95). -/
theorem decodeSegment_dataBlock {data bytes : List Byte} (h : dataBlockBytes data = some bytes) :
    decodeSegment bytes = some (.dataBlock data) := by
  obtain ⟨hne, c, _, rfl⟩ := dataBlockBytes_spec h
  have hdrop : (data ++ [c]).dropLast = data := List.dropLast_concat
  obtain ⟨b, bs, rfl⟩ := List.exists_cons_of_ne_nil hne
  obtain ⟨x, rest, hrest⟩ := List.exists_cons_of_ne_nil (List.concat_ne_nil c bs)
  rw [List.cons_append, hrest] at hdrop h ⊢
  simp only [decodeSegment, hdrop]
  exact if_pos h

/-- Settles O1, row by row: a frame of a drive decodes by its command byte, the other two command rows by the test they
fail, a payload is its bytes, a handshake byte is tested for, and a data block is known by its checksum. -/
theorem decodeInvertsEncode : Obligations.DecodeInvertsEncode := by
  intro i hi
  cases i with
  | idle d a1 a2 => exact decode_encodeFrame d _ a1 a2
  | format d a1 a2 => exact decode_encodeFrame d _ a1 a2
  | formatMd d a1 a2 => exact decode_encodeFrame d _ a1 a2
  | poll d a1 a2 => exact decode_encodeFrame d _ a1 a2
  | status d a1 a2 => exact decode_encodeFrame d _ a1 a2
  | write d n => exact decode_encodeFrame_sector (row := .write d) (fun _ _ => rfl) n
  | read d n => exact decode_encodeFrame_sector (row := .read d) (fun _ _ => rfl) n
  | writeVerify d n => exact decode_encodeFrame_sector (row := .writeVerify d) (fun _ _ => rfl) n
  | unsupported d c a1 a2 =>
    have hc : c ∉ namedCommands := by simpa [Instr.wellFormed] using hi
    exact (decode_encodeFrame d c a1 a2).trans (congrArg _ (decodeCommand_unlisted hc d a1 a2))
  | notmine dev c a1 a2 =>
    have hdev : honoured dev = false := by simpa [Instr.wellFormed] using hi
    exact congrArg Except.ok (decodeFrame_foreign rfl hdev)
  | badsum dev c a1 a2 k =>
    have hk : frameChecksum dev c a1 a2 ≠ k := by simpa [Instr.wellFormed] using hi
    exact congrArg Except.ok (if_pos hk)
  | payload data =>
    cases data with
    | nil => simp [Instr.wellFormed] at hi
    | cons b bs => rfl
  | ack => rfl
  | complete => rfl
  | nak => rfl
  | err => rfl
  | dataBlock data =>
    cases data with
    | nil => simp [Instr.wellFormed] at hi
    | cons b bs =>
      have hseg := decodeSegment_dataBlock (dataBlockBytes_cons b bs)
      show decode .segment (b :: bs ++ [checksumCons b bs]) = _
      simp only [decode, hseg]

/-! ### From five bytes to their row and back -/

/-- A well-formed row whose encoding is these bytes. -/
def Spells (i : Instr) (bytes : List Byte) : Prop :=
  i.wellFormed = true ∧ encode i = bytes

theorem encodeFrame_sectorOf (dev c a1 a2 : Byte) :
    encodeFrame dev c (aux1Of (sectorOf a1 a2)) (aux2Of (sectorOf a1 a2)) = encodeFrame dev c a1 a2 := by
  rw [aux1Of_sectorOf, aux2Of_sectorOf]

/-- Each of the nine command classes spells the frame that it decodes from (30_encoding.md R99). -/
theorem decodeCommand_spells (d : Drive) (c a1 a2 : Byte) :
    Spells (decodeCommand d c a1 a2) (encodeFrame (deviceIdOf d) c a1 a2) := by
  by_cases hc : c ∈ namedCommands
  case neg =>
    rw [decodeCommand_unlisted hc]
    exact ⟨by simpa [Instr.wellFormed] using hc, rfl⟩
  case pos =>
    simp only [namedCommands, List.mem_cons, List.not_mem_nil, or_false] at hc
    rcases hc with rfl | rfl | rfl | rfl | rfl | rfl | rfl | rfl
    · exact ⟨rfl, rfl⟩
    · exact ⟨rfl, rfl⟩
    · exact ⟨rfl, rfl⟩
    · exact ⟨rfl, rfl⟩
    · exact ⟨rfl, encodeFrame_sectorOf _ Proto.cmdWrite a1 a2⟩
    · exact ⟨rfl, encodeFrame_sectorOf _ Proto.cmdRead a1 a2⟩
    · exact ⟨rfl, rfl⟩
    · exact ⟨rfl, encodeFrame_sectorOf _ Proto.cmdWriteVerify a1 a2⟩

/-- In the order of tests of R98: a bad checksum, a foreign device id, a command byte. -/
theorem decodeFrame_spells (dev c a1 a2 k : Byte) : Spells (decodeFrame dev c a1 a2 k) [dev, c, a1, a2, k] := by
  by_cases hsum : checksum [dev, c, a1, a2] = some k
  case neg =>
    rw [decodeFrame_badChecksum hsum]
    have hk : frameChecksum dev c a1 a2 ≠ k := fun he => hsum (congrArg some he)
    exact ⟨bne_iff_ne.2 hk, rfl⟩
  case pos =>
    have hk : frameChecksum dev c a1 a2 = k := Option.some.inj hsum
    cases hdev : honoured dev with
    | false =>
      rw [decodeFrame_foreign hsum hdev, ← hk]
      exact ⟨by simp [Instr.wellFormed, hdev], rfl⟩
    | true =>
      obtain ⟨d, rfl⟩ := exists_drive_of_honoured hdev
      rw [decodeFrame_drive hsum, ← hk]
      exact decodeCommand_spells d c a1 a2

/-- Settles O2: whichever row the tests select is a command frame and spells the five bytes. -/
theorem everyFiveBytesAreOneRow : Obligations.EveryFiveBytesAreOneRow := by
  intro dev c a1 a2 k
  obtain ⟨hwf, hencode⟩ := decodeFrame_spells dev c a1 a2 k
  exact ⟨hwf, decodeFrame_format dev c a1 a2 k, hencode⟩

/-- Settles O3: a wrong checksum and a foreign id each end the tests; else the id is a drive's, and the command byte
alone selects the row. -/
theorem frameTestsInOrder : Obligations.FrameTestsInOrder := by
  intro dev c a1 a2 k
  refine ⟨decodeFrame_badChecksum, fun hsum hdev => decodeFrame_foreign hsum (honoured_of_foreign hdev), ?_⟩
  intro hsum hlo hhi d n hd hn
  obtain ⟨e, rfl⟩ := exists_drive_of_honoured (honoured_of_range hlo hhi)
  obtain rfl : d = e := Fin.ext (hd.trans (deviceIdOf_index e))
  obtain rfl := sectorOf_eq hn
  rw [decodeFrame_drive hsum]
  refine ⟨?_, ?_, ?_, ?_, ?_, ?_, ?_, ?_, fun hc => decodeCommand_unlisted hc d a1 a2⟩ <;> rintro rfl <;> rfl

/-- Settles O4: each word is decoded by evaluating the decoder on it. -/
theorem wordsOfTheSpecDecode : Obligations.WordsOfTheSpecDecode := by
  unfold Obligations.WordsOfTheSpecDecode
  decide

/-! ### The closed form of the checksum -/

/-- The checksum of bytes whose exact sum is `sum` (40_checksum.md section 1). -/
def closedForm (sum : Nat) : Nat :=
  if sum = 0 then 0 else (sum - 1) % 255 + 1

theorem closedForm_le (sum : Nat) : closedForm sum ≤ 255 := by
  unfold closedForm
  split <;> omega

theorem closedForm_byte (b : Byte) : closedForm b.toNat = b.toNat := by
  have hb : b.toNat < 256 := b.isLt
  unfold closedForm
  split <;> omega

/-- One fold adds a byte to the exact sum. -/
theorem foldCarry_closedForm (sum : Nat) (b : Byte) : foldCarry (closedForm sum) b = closedForm (sum + b.toNat) := by
  have hb : b.toNat < 256 := b.isLt
  rw [foldCarry_eq _ b (closedForm_le sum)]
  unfold closedForm
  split_ifs <;> omega

theorem checksumFrom_closedForm (bs : List Byte) (sum : Nat) :
    checksumFrom (closedForm sum) bs = closedForm (sum + (bs.map BitVec.toNat).sum) := by
  induction bs generalizing sum with
  | nil => rfl
  | cons b bs ih =>
    rw [checksumFrom, foldCarry_closedForm, ih, List.map_cons, List.sum_cons, Nat.add_assoc]

/-- Settles O6: the loop starts at the first byte, its own closed form, and each fold keeps the closed form of the sum
so far. -/
theorem checksumClosedForm : Obligations.ChecksumClosedForm := by
  intro l c hc
  cases l with
  | nil => cases hc
  | cons b bs =>
    cases hc
    calc (checksumCons b bs).toNat
        = checksumFrom (closedForm b.toNat) bs := by rw [checksumCons_toNat, closedForm_byte]
      _ = closedForm (b.toNat + (bs.map BitVec.toNat).sum) := checksumFrom_closedForm bs _

end Sys2Proof.Machine

/-! PROOFS. What one event can do, said once: the inversion of the Frame Decoder, of a received chunk, of the end of a
segment and of every event. The statements about every step are derived from these. -/

namespace Sys2Proof.Machine

/-! ### A received chunk -/

/-- The state after the gap rule (41_frame_decoder.md R132): the buffer as it was, or discarded. -/
def AfterGap (s v : State) : Prop :=
  v = s ∨ v = discardFrame (.timeoutFrame s.fbuf) s

/-- Everything the Frame Decoder can end in (R131 to R136). -/
inductive DecoderEnd (bytes : List Byte) (s : State) : State → Prop where
  | command {v t : State} (hv : AfterGap s v) {i : Instr} (hi : i.format? = .command)
      (hexec : exec i (appendFrame bytes v) = .next t) : DecoderEnd bytes s t
  | waits {v : State} (hv : AfterGap s v) (hlen : (v.fbuf ++ bytes).length < 5) :
      DecoderEnd bytes s (appendFrame bytes v)
  | tooLong {v : State} (hv : AfterGap s v) :
      DecoderEnd bytes s (discardFrame (.framingError .length (v.fbuf ++ bytes)) v)

theorem frameDecoder_end {bytes : List Byte} {gap : Time} {s t : State} (h : frameDecoder bytes gap s = .next t) :
    DecoderEnd bytes s t := by
  rw [frameDecoder_eq_runFetch] at h
  obtain ⟨v, hv, ⟨dev, c, a1, a2, k, _, hf⟩ | ⟨hlen, hf⟩ | ⟨_, hf⟩⟩ := fetchFrame_cases bytes gap s
  · rw [hf] at h
    exact .command hv (decodeFrame_format dev c a1 a2 k) h
  · rw [hf] at h
    cases h
    exact .waits hv hlen
  · rw [hf] at h
    cases h
    exact .tooLong hv

/-- A complete payload on its way to the drive port: the chunk stamped, the excess reported, the buffer empty
(44_sector_write_receiver.md R203, R207). -/
def handOver (p : PendingWrite) (bytes : List Byte) (s : State) : State :=
  { dropExcess ((s.pbuf ++ bytes).drop p.len) (stampConsumed s) with pbuf := [], pstate := .processingData }

/-- An armed receiver (R200) that the chunk reaches within the abort threshold (R209). -/
structure InTime (p : PendingWrite) (s : State) : Prop where
  armed : s.pstate = .awaitingSectorData
  pw : s.pw = some p
  gap : s.now - s.tRx ≤ s.config.tAbort

/-- Everything a received chunk can end in (41_frame_decoder.md R130, R137; 44_sector_write_receiver.md R201 to R207).
-/
inductive ReceivedEnd (bytes : List Byte) (s : State) : State → Prop where
  | dropped (hproc : s.pstate.processing = true) : ReceivedEnd bytes s (unexpected bytes s)
  | frame {t : State} (hstate : s.pstate = .awaitingCommand) (ht : DecoderEnd bytes (stampConsumed s) t) :
      ReceivedEnd bytes s t
  | late {p : PendingWrite} {t : State} (hstate : s.pstate = .awaitingSectorData) (hpw : s.pw = some p)
      (hgap : s.config.tAbort < s.now - s.tRx) (ht : DecoderEnd bytes (abortPayload p (stampConsumed s)) t) :
      ReceivedEnd bytes s t
  | accumulated {p : PendingWrite} (hp : InTime p s) (hlen : (s.pbuf ++ bytes).length < p.len) :
      ReceivedEnd bytes s { stampConsumed s with pbuf := s.pbuf ++ bytes }
  | written {p : PendingWrite} (hp : InTime p s) {u : State}
      (hport : portWriteSector p.drive.val p.sector ((s.pbuf ++ bytes).take p.len) (handOver p bytes s) =
        .answered (.ok ()) u) : ReceivedEnd bytes s (writeSucceeded u)
  | failed {p : PendingWrite} (hp : InTime p s) {u : State} {e : DriveError}
      (hport : portWriteSector p.drive.val p.sector ((s.pbuf ++ bytes).take p.len) (handOver p bytes s) =
        .answered (.err e) u) : ReceivedEnd bytes s (writeFailed p.drive e u)

/-- What the drive port's answer makes of a complete payload (44_sector_write_receiver.md R203 to R205). -/
theorem persist_next {p : PendingWrite} {payload : List Byte} {s t : State} (h : persist p payload s = .next t) :
    ∃ a u, portWriteSector p.drive.val p.sector payload { s with pbuf := [], pstate := .processingData } =
        .answered a u ∧
      ((a = .ok () ∧ t = writeSucceeded u) ∨ ∃ e, a = .err e ∧ t = writeFailed p.drive e u) := by
  unfold persist at h
  split at h
  · rename_i u hport
    exact ⟨_, u, hport, .inl ⟨rfl, (Host.Outcome.next.inj h).symm⟩⟩
  · rename_i e u hport
    exact ⟨_, u, hport, .inr ⟨e, rfl, (Host.Outcome.next.inj h).symm⟩⟩
  · cases h

theorem accumulate_end {p : PendingWrite} {bytes : List Byte} {s t : State} (hp : InTime p s)
    (h : accumulate p bytes (stampConsumed s) = .next t) : ReceivedEnd bytes s t := by
  unfold accumulate at h
  split at h
  · rename_i hlen
    cases h
    exact .accumulated hp hlen
  · obtain ⟨a, u, hport, ⟨rfl, rfl⟩ | ⟨e, rfl, rfl⟩⟩ := persist_next h
    · exact .written hp hport
    · exact .failed hp hport

theorem execPayload_end {bytes : List Byte} {s t : State} (h : execPayload bytes s = .next t) :
    ReceivedEnd bytes s t := by
  unfold execPayload at h
  split at h
  case h_1 hstate =>
    unfold sectorWriteReceiver at h
    split at h
    case h_1 => cases h
    case h_2 p hpw =>
      split at h
      · rename_i hgap
        exact .late hstate hpw hgap (frameDecoder_end h)
      · rename_i hgap
        exact accumulate_end ⟨hstate, hpw, Nat.le_of_not_lt hgap⟩ h
  case h_2 hstate => exact .frame hstate (frameDecoder_end h)
  case h_3 hstate =>
    cases h
    exact .dropped (congrArg PState.processing hstate)
  case h_4 hstate =>
    cases h
    exact .dropped (congrArg PState.processing hstate)

/-! ### The end of a segment -/

/-- Everything the end of a segment can end in (45_response_transmitter.md R225, R226): the next segment begins its
delay, or the sequence ends by its continuation. -/
inductive CompletionEnd (s : State) : State → Prop where
  | more {g : Segment} {rest : List Segment} (hs : s.txSegs.drop 1 = g :: rest) :
      CompletionEnd s { s with tRef := s.now, txSegs := g :: rest, txPhase := .waitDelay }
  | toAwaitingCommand (hs : s.txSegs.drop 1 = []) (hc : s.txCont = .toAwaitingCommand) :
      CompletionEnd s { s with
        tRef := s.now, txSegs := [], txActive := false, txPhase := .idle, txCont := .noChange,
        pstate := .awaitingCommand }
  | toAwaitingSectorData (hs : s.txSegs.drop 1 = []) (hc : s.txCont = .toAwaitingSectorData) :
      CompletionEnd s { s with
        tRef := s.now, txSegs := [], txActive := false, txPhase := .idle, txCont := .noChange,
        pstate := .awaitingSectorData, pbuf := [], tRx := s.now }
  | noChange (hs : s.txSegs.drop 1 = []) (hc : s.txCont = .noChange) :
      CompletionEnd s { s with
        tRef := s.now, txSegs := [], txActive := false, txPhase := .idle, txCont := .noChange }

theorem segmentComplete_end (s : State) : CompletionEnd s (segmentComplete s) := by
  unfold segmentComplete
  split
  case h_1 hs =>
    generalize hv : ({ s with tRef := s.now, txSegs := [] } : State) = v
    have hcont : v.txCont = s.txCont := hv ▸ rfl
    cases hc : s.txCont with
    | toAwaitingCommand =>
      rw [sequenceComplete_toAwaitingCommand (hcont.trans hc), ← hv]
      exact .toAwaitingCommand hs hc
    | toAwaitingSectorData =>
      rw [sequenceComplete_toAwaitingSectorData (hcont.trans hc), ← hv]
      exact .toAwaitingSectorData hs hc
    | noChange =>
      rw [sequenceComplete_noChange (hcont.trans hc), ← hv]
      exact .noChange hs hc
  case h_2 g rest hs => exact .more hs

/-! ### Every event -/

/-- A result given back to a caller outside the block. -/
def reply (r : Reply) (s : State) : State :=
  { s with replies := s.replies ++ [r] }

/-- The segment of these two phases is complete at this event (45_response_transmitter.md R223, R224). -/
inductive Completes (s : State) : Event → Prop where
  | written (hp : s.txPhase = .waitWrite) : Completes s .writeDone
  | drained (hp : s.txPhase = .waitDrain) (hq : s.txQueued = 0) : Completes s .drainDone

/-- Everything an event can end in (60_exceptions.md R252). -/
inductive EventEnd (s : State) : Event → State → Prop where
  | received {bytes : List Byte} {t : State} (ht : ReceivedEnd bytes s t) : EventEnd s (.rxChunk bytes) t
  | aborted {p : PendingWrite} (hstate : s.pstate = .awaitingSectorData) (hpw : s.pw = some p) :
      EventEnd s .abortTimeout (abortPayload p s)
  | sent {g : Segment} {rest : List Segment} (hs : s.txSegs = g :: rest) (hp : s.txPhase = .waitDelay)
      (hd : deadlineOf s g ≤ s.now) : EventEnd s .deadline (emitWrite g.bytes s)
  | ignored {e : Event} (he : e = .writeDone ∨ e = .drainDone) : EventEnd s e s
  | draining (hp : s.txPhase = .waitWrite) : EventEnd s .writeDone { s with txPhase := .waitDrain }
  | completed {e : Event} {t : State} (he : Completes s e) (ht : CompletionEnd s t) : EventEnd s e t
  | cut (r : Nat) : EventEnd s (.transportError r) (transportError r s)
  | accepted (k : Nat) {segs : List Segment} (hok : sequenceOk segs = true) (hfree : s.txActive = false) (r : Reply) :
      EventEnd s (.txStart k segs) (reply r (txAccept segs .noChange s))
  | rejected (k : Nat) (segs : List Segment) (m : Diagnostic) (r : Reply) :
      EventEnd s (.txStart k segs) (reply r (raise m s))
  | noSlot {e : Event} (he : (∃ i h, e = .bind i h) ∨ ∃ i, e = .unbind i) (r : Reply) : EventEnd s e (reply r s)
  | bound (i : Int) (h : Handle) (d : Drive) (r : Reply) :
      EventEnd s (.bind i h) (reply r (setSlot d (some h) s))
  | unbound (i : Int) (d : Drive) (r : Reply) : EventEnd s (.unbind i) (reply r (setSlot d none s))
  | flushed (n : Nat) : EventEnd s (.flushed n) { s with txQueued := s.txQueued - n }
  | reset : EventEnd s .reset (resetNow s)

theorem abortTimeout_next {s t : State} (h : abortTimeout s = .next t) :
    ∃ p, s.pstate = .awaitingSectorData ∧ s.pw = some p ∧ t = abortPayload p s := by
  unfold abortTimeout at h
  split at h
  case isTrue hdue =>
    split at h
    case h_1 p hpw => exact ⟨p, hdue.1, hpw, (Host.Outcome.next.inj h).symm⟩
    case h_2 => cases h
  case isFalse => cases h

theorem transmitHead_next {s t : State} (h : transmitHead s = .next t) :
    ∃ g rest, s.txSegs = g :: rest ∧ s.txPhase = .waitDelay ∧ deadlineOf s g ≤ s.now ∧ t = emitWrite g.bytes s := by
  unfold transmitHead at h
  split at h
  case h_1 => cases h
  case h_2 g rest hs =>
    obtain ⟨g', rest', hs', hp, _, hd, rfl⟩ := transmit_next h
    rw [hs] at hs'
    cases hs'
    exact ⟨g, rest, hs, hp, hd, rfl⟩

theorem writeDone_end (s : State) : EventEnd s .writeDone (writeDone s) := by
  rcases writeDone_cases s with h | ⟨g, rest, hp, _, ⟨_, h⟩ | ⟨_, h⟩⟩ <;> rw [h]
  · exact .ignored (.inl rfl)
  · exact .draining hp
  · exact .completed (.written hp) (segmentComplete_end s)

theorem externalStart_end (k : Nat) {segs : List Segment} (hok : sequenceOk segs = true) (s : State) :
    EventEnd s (.txStart k segs) (externalStart k segs s) := by
  cases h : s.txActive with
  | false =>
    rw [externalStart_free h]
    exact .accepted k hok h _
  | true =>
    rw [externalStart_held h]
    exact .rejected k segs _ _

theorem bindSlot_end (i : Int) (h : Handle) (s : State) : EventEnd s (.bind i h) (bindSlot i h s) := by
  unfold bindSlot
  split
  · exact .noSlot (.inl ⟨i, h, rfl⟩) _
  · exact .bound i h _ _

theorem unbindSlot_end (i : Int) (s : State) : EventEnd s (.unbind i) (unbindSlot i s) := by
  unfold unbindSlot
  split
  · exact .noSlot (.inr ⟨i, rfl⟩) _
  · exact .unbound i _ _

theorem runEvent_end {e : Event} {s t : State} (h : runEvent e s = .next t) : EventEnd s e t := by
  cases e with
  | rxChunk bytes =>
    simp only [runEvent, runFetch_received] at h
    split at h
    · exact .received (execPayload_end h)
    · cases h
  | abortTimeout =>
    obtain ⟨p, hstate, hpw, rfl⟩ := abortTimeout_next h
    exact .aborted hstate hpw
  | deadline =>
    obtain ⟨g, rest, hs, hp, hd, rfl⟩ := transmitHead_next ((runSegment_eq s).symm.trans h)
    exact .sent hs hp hd
  | writeDone =>
    cases h
    exact writeDone_end s
  | drainDone =>
    rcases drainDone_next h with ⟨_, rfl⟩ | ⟨hp, hq, rfl⟩
    · exact .ignored (.inr rfl)
    · exact .completed (.drained hp hq) (segmentComplete_end s)
  | transportError r =>
    cases h
    exact .cut r
  | txStart k segs =>
    simp only [runEvent] at h
    split at h
    · rename_i hok
      cases h
      exact externalStart_end k hok s
    · cases h
  | bind i x =>
    cases h
    exact bindSlot_end i x s
  | unbind i =>
    cases h
    exact unbindSlot_end i s
  | flushed n =>
    obtain ⟨_, rfl⟩ := flush_next h
    exact .flushed n
  | reset =>
    cases h
    exact .reset

/-- Everything a step can end in: it waits, or the coming event is taken and ends as above. -/
theorem step_end {s t : State} (h : step s = .next t) :
    (s.pending = [] ∧ t = s) ∨
    ∃ e rest, s.pending = e :: rest ∧ s.now ≤ e.time ∧ EventEnd (takeEvent e rest s) e.event t := by
  rcases step_cases h with hwait | ⟨e, rest, hp, ht, hrun⟩
  · exact .inl hwait
  · exact .inr ⟨e, rest, hp, ht, runEvent_end hrun⟩

end Sys2Proof.Machine

/-! PROOFS. What the protocol engine leaves unchanged, and what one event does to the Response Transmitter: from these
the statements about every step that need no invariant, and those about the order of transmissions. -/

namespace Sys2Proof.Machine

/-! ### The frame of the protocol engine -/

/-- The transmitter's registers are the same. -/
structure SameTransmitter (s t : State) : Prop where
  active : t.txActive = s.txActive
  segs : t.txSegs = s.txSegs
  phase : t.txPhase = s.txPhase
  cont : t.txCont = s.txCont

/-- The lock was free and a sequence was accepted, whose first delay has begun (45_response_transmitter.md R221). -/
structure Accepted (s t : State) : Prop where
  free : s.txActive = false
  active : t.txActive = true
  phase : t.txPhase = .waitDelay

/-- The diagnostics grew, each new one stamped with the present instant. -/
def DiagGrows (s t : State) : Prop :=
  ∃ l, t.diag = s.diag ++ l ∧ ∀ r ∈ l, r.time = s.now

/-- What received bytes, whatever they are, change neither in the environment nor in the transmitter, but for an
accepted sequence. -/
structure EngineFrame (s t : State) : Prop where
  config : t.config = s.config
  now : t.now = s.now
  txQueued : t.txQueued = s.txQueued
  txTrace : t.txTrace = s.txTrace
  replies : t.replies = s.replies
  pending : t.pending = s.pending
  diag : DiagGrows s t
  tx : SameTransmitter s t ∨ Accepted s t

theorem SameTransmitter.refl (s : State) : SameTransmitter s s := ⟨rfl, rfl, rfl, rfl⟩

theorem DiagGrows.of_eq {s t : State} (h : t.diag = s.diag) : DiagGrows s t :=
  ⟨[], h.trans (List.append_nil _).symm, fun _ hr => nomatch hr⟩

theorem DiagGrows.raised {s t : State} {m : Diagnostic} (h : t.diag = s.diag ++ [⟨m, s.now⟩]) : DiagGrows s t :=
  ⟨_, h, fun _ hr => List.mem_singleton.1 hr ▸ rfl⟩

theorem DiagGrows.trans {s t u : State} (hst : DiagGrows s t) (hnow : t.now = s.now) (htu : DiagGrows t u) :
    DiagGrows s u := by
  obtain ⟨l, hl, hlt⟩ := hst
  obtain ⟨m, hm, hmt⟩ := htu
  refine ⟨l ++ m, by rw [hm, hl, List.append_assoc], fun r hr => ?_⟩
  rcases List.mem_append.1 hr with hr | hr
  · exact hlt r hr
  · exact (hmt r hr).trans hnow

/-- Only the engine's registers, the drive table and its trace differ. -/
theorem EngineFrame.of_registers {s t : State}
    (h : t = { s with
      pstate := t.pstate, fbuf := t.fbuf, tRx := t.tRx, pbuf := t.pbuf, pw := t.pw, tRef := t.tRef,
      slots := t.slots, driveTrace := t.driveTrace, draws := t.draws }) : EngineFrame s t := by
  rw [h]
  exact ⟨rfl, rfl, rfl, rfl, rfl, rfl, .of_eq rfl, .inl ⟨rfl, rfl, rfl, rfl⟩⟩

theorem EngineFrame.of_raise (m : Diagnostic) (s : State) : EngineFrame s (raise m s) :=
  ⟨rfl, rfl, rfl, rfl, rfl, rfl, .raised rfl, .inl ⟨rfl, rfl, rfl, rfl⟩⟩

theorem EngineFrame.trans {s t u : State} (hst : EngineFrame s t) (htu : EngineFrame t u) : EngineFrame s u where
  config := htu.config.trans hst.config
  now := htu.now.trans hst.now
  txQueued := htu.txQueued.trans hst.txQueued
  txTrace := htu.txTrace.trans hst.txTrace
  replies := htu.replies.trans hst.replies
  pending := htu.pending.trans hst.pending
  diag := hst.diag.trans hst.now htu.diag
  tx := by
    rcases hst.tx with h | h <;> rcases htu.tx with k | k
    · exact .inl ⟨k.active.trans h.active, k.segs.trans h.segs, k.phase.trans h.phase, k.cont.trans h.cont⟩
    · exact .inr ⟨h.active ▸ k.free, k.active, k.phase⟩
    · exact .inr ⟨h.free, k.active.trans h.active, k.phase.trans h.phase⟩
    · exact absurd (h.active.symm.trans k.free) (by decide)

/-- A diagnostic and then other registers of the engine. -/
theorem EngineFrame.raised (m : Diagnostic) {s t : State}
    (h : t = { raise m s with
      pstate := t.pstate, fbuf := t.fbuf, tRx := t.tRx, pbuf := t.pbuf, pw := t.pw, tRef := t.tRef,
      slots := t.slots, driveTrace := t.driveTrace, draws := t.draws }) : EngineFrame s t :=
  (EngineFrame.of_raise m s).trans (.of_registers h)

theorem WritingCall.engineFrame {i : Int} {s t : State} (h : WritingCall i s t) : EngineFrame s t := by
  have hframe : t = { s with slots := t.slots, driveTrace := t.driveTrace, draws := t.draws } := h.frame
  refine .of_registers ?_
  rw [hframe]

theorem engineStart_frame (segs : List Segment) (c : Continuation) (s : State) :
    EngineFrame s (engineStart segs c s) := by
  rcases engineStart_cases segs c s with ⟨hfree, h⟩ | ⟨_, h⟩ <;> rw [h]
  · exact ⟨rfl, rfl, rfl, rfl, rfl, rfl, .of_eq rfl, .inr ⟨hfree, rfl, rfl⟩⟩
  · exact .raised _ rfl

theorem CommandEnd.engineFrame {d : Drive} {s t : State} (h : CommandEnd d s t) : EngineFrame s t := by
  cases h with
  | silent e => exact .raised _ rfl
  | answer x y data k hk => exact engineStart_frame _ _ _
  | arm n len hl => exact (EngineFrame.of_registers (s := s) rfl).trans (engineStart_frame _ _ _)

theorem FrameEnd.engineFrame {s t : State} (h : FrameEnd s t) : EngineFrame s t := by
  cases h with
  | quiet => exact .of_registers rfl
  | dropped m => exact .raised m rfl
  | bad b => exact .raised _ rfl
  | command d u _ hu ht =>
    exact (EngineFrame.of_registers (s := s) (t := acceptFrame s) rfl).trans (hu.engineFrame.trans ht.engineFrame)

theorem AfterGap.engineFrame {s v : State} (h : AfterGap s v) : EngineFrame s v := by
  rcases h with rfl | rfl
  · exact .of_registers rfl
  · exact .raised _ rfl

theorem DecoderEnd.engineFrame {bytes : List Byte} {s t : State} (h : DecoderEnd bytes s t) : EngineFrame s t := by
  cases h with
  | @command v _ hv i hi hexec =>
    have happend : EngineFrame v (appendFrame bytes v) := .of_registers rfl
    exact hv.engineFrame.trans (happend.trans (exec_frame_end hi hexec).engineFrame)
  | waits hv _ => exact hv.engineFrame.trans (.of_registers rfl)
  | tooLong hv => exact hv.engineFrame.trans (.raised _ rfl)

theorem stampConsumed_frame (s : State) : EngineFrame s (stampConsumed s) := .of_registers rfl

theorem dropExcess_frame (excess : List Byte) (s : State) : EngineFrame s (dropExcess excess s) := by
  unfold dropExcess
  split
  · exact .of_registers rfl
  · exact .of_raise _ s

theorem handOver_frame (p : PendingWrite) (bytes : List Byte) (s : State) : EngineFrame s (handOver p bytes s) :=
  (stampConsumed_frame s).trans ((dropExcess_frame _ _).trans (.of_registers rfl))

theorem writeSucceeded_frame (s : State) : EngineFrame s (writeSucceeded s) :=
  (EngineFrame.of_registers (s := s) rfl).trans (engineStart_frame _ _ _)

theorem ReceivedEnd.engineFrame {bytes : List Byte} {s t : State} (h : ReceivedEnd bytes s t) : EngineFrame s t := by
  cases h with
  | dropped _ => exact .raised _ rfl
  | frame _ ht => exact (stampConsumed_frame s).trans ht.engineFrame
  | @late p _ _ _ _ ht =>
    have habort : EngineFrame (stampConsumed s) (abortPayload p (stampConsumed s)) := .raised _ rfl
    exact (stampConsumed_frame s).trans (habort.trans ht.engineFrame)
  | accumulated _ _ => exact .of_registers rfl
  | written _ hport =>
    exact (handOver_frame _ _ _).trans ((portWriteSector_spec hport).1.engineFrame.trans (writeSucceeded_frame _))
  | failed _ hport =>
    exact (handOver_frame _ _ _).trans ((portWriteSector_spec hport).1.engineFrame.trans (.raised _ rfl))

/-! ### The clock, the configuration, the coming events -/

theorem CompletionEnd.clock {s t : State} (h : CompletionEnd s t) :
    t.config = s.config ∧ t.now = s.now ∧ t.pending = s.pending := by
  cases h <;> exact ⟨rfl, rfl, rfl⟩

theorem EventEnd.clock {e : Event} {s t : State} (h : EventEnd s e t) :
    t.config = s.config ∧ t.now = s.now ∧ t.pending = s.pending := by
  cases h with
  | received ht => exact ⟨ht.engineFrame.config, ht.engineFrame.now, ht.engineFrame.pending⟩
  | completed _ ht => exact ht.clock
  | _ => exact ⟨rfl, rfl, rfl⟩

/-- Settles O13: taking the event sets the clock and shortens the list, and nothing the event does touches either, or
the configuration. -/
theorem everyStepTakesOneEvent : Obligations.EveryStepTakesOneEvent := by
  intro s t h
  rcases step_end h with ⟨hp, rfl⟩ | ⟨e, rest, hp, ht, hend⟩
  · exact ⟨Nat.le_refl _, rfl, .inl ⟨hp, rfl⟩⟩
  · obtain ⟨hconfig, hnow, hpending⟩ := hend.clock
    exact ⟨hnow ▸ ht, hconfig, .inr ⟨e, hpending ▸ hp, hnow⟩⟩

/-! ### The transmitter -/

/-- Everything an event can do to the transmitter. In a Processing state an event that does not end a segment leaves the
protocol state and the timing reference alone. -/
inductive TxEffect (s : State) (e : Event) (t : State) : Prop where
  | stays (hsame : SameTransmitter s t) (htrace : t.txTrace = s.txTrace)
      (hproc : s.pstate.processing = true → t.pstate = s.pstate ∧ t.tRef = s.tRef)
  | accepts (hacc : Accepted s t) (htrace : t.txTrace = s.txTrace)
  | sends {g : Segment} {rest : List Segment} (hs : s.txSegs = g :: rest) (hp : s.txPhase = .waitDelay)
      (hd : deadlineOf s g ≤ t.now) (hsegs : t.txSegs = s.txSegs) (hphase : t.txPhase = .waitWrite)
      (htrace : t.txTrace = s.txTrace ++ [⟨g.bytes, t.now⟩])
  | drains (hp : s.txPhase = .waitWrite) (hsegs : t.txSegs = s.txSegs) (hphase : t.txPhase = .waitDrain)
      (htrace : t.txTrace = s.txTrace)
  | completes (he : Completes s e) (hsegs : t.txSegs = s.txSegs.drop 1)
      (hphase : t.txPhase = .waitDelay ∨ (t.txPhase = .idle ∧ t.txSegs = [])) (htrace : t.txTrace = s.txTrace)
  | cuts {r : Nat} (he : e = .transportError r) (htrace : t.txTrace = s.txTrace)
  | resets (he : e = .reset) (htrace : t.txTrace = [])

theorem CompletionEnd.txEffect {s t : State} {e : Event} (he : Completes s e) (h : CompletionEnd s t) :
    TxEffect s e t := by
  cases h with
  | more hs => exact .completes he hs.symm (.inl rfl) rfl
  | toAwaitingCommand hs _ => exact .completes he hs.symm (.inr ⟨rfl, rfl⟩) rfl
  | toAwaitingSectorData hs _ => exact .completes he hs.symm (.inr ⟨rfl, rfl⟩) rfl
  | noChange hs _ => exact .completes he hs.symm (.inr ⟨rfl, rfl⟩) rfl

/-- A chunk that reaches the Frame Decoder or the receiver finds the block outside the Processing states. -/
theorem ReceivedEnd.processing {bytes : List Byte} {s t : State} (h : ReceivedEnd bytes s t)
    (hproc : s.pstate.processing = true) : t = unexpected bytes s := by
  have hnot : ∀ p, s.pstate = p → p.processing = false → t = unexpected bytes s := fun p hp hf =>
    absurd (hproc.symm.trans ((congrArg _ hp).trans hf)) (by decide)
  cases h with
  | dropped _ => rfl
  | frame hstate _ => exact hnot _ hstate rfl
  | late hstate _ _ _ => exact hnot _ hstate rfl
  | accumulated hp _ => exact hnot _ hp.armed rfl
  | written hp _ => exact hnot _ hp.armed rfl
  | failed hp _ => exact hnot _ hp.armed rfl

theorem EventEnd.txEffect {e : Event} {s t : State} (h : EventEnd s e t) : TxEffect s e t := by
  cases h with
  | received ht =>
    rcases ht.engineFrame.tx with hsame | hacc
    · refine .stays hsame ht.engineFrame.txTrace fun hproc => ?_
      rw [ht.processing hproc]
      exact ⟨rfl, rfl⟩
    · exact .accepts hacc ht.engineFrame.txTrace
  | aborted hstate _ =>
    refine .stays ⟨rfl, rfl, rfl, rfl⟩ rfl fun hproc => ?_
    rw [hstate] at hproc
    cases hproc
  | sent hs hp hd => exact .sends hs hp hd rfl rfl rfl
  | draining hp => exact .drains hp rfl rfl rfl
  | completed he ht => exact ht.txEffect he
  | cut r => exact .cuts rfl rfl
  | accepted k hok hfree r => exact .accepts ⟨hfree, rfl, rfl⟩ rfl
  | reset => exact .resets rfl rfl
  | ignored _ => exact .stays (.refl s) rfl fun _ => ⟨rfl, rfl⟩
  | rejected k segs m r => exact .stays ⟨rfl, rfl, rfl, rfl⟩ rfl fun _ => ⟨rfl, rfl⟩
  | noSlot _ r => exact .stays ⟨rfl, rfl, rfl, rfl⟩ rfl fun _ => ⟨rfl, rfl⟩
  | bound i h d r => exact .stays ⟨rfl, rfl, rfl, rfl⟩ rfl fun _ => ⟨rfl, rfl⟩
  | unbound i d r => exact .stays ⟨rfl, rfl, rfl, rfl⟩ rfl fun _ => ⟨rfl, rfl⟩
  | flushed n => exact .stays ⟨rfl, rfl, rfl, rfl⟩ rfl fun _ => ⟨rfl, rfl⟩

/-- A step that hands over a segment hands over the head, which was due. -/
theorem step_sends {s t : State} (h : step s = .next t) (hlen : t.txTrace.length > s.txTrace.length) :
    ∃ g rest, s.txSegs = g :: rest ∧ s.txPhase = .waitDelay ∧ t.txPhase = .waitWrite ∧ deadlineOf s g ≤ t.now ∧
      t.txTrace = s.txTrace ++ [⟨g.bytes, t.now⟩] := by
  have hno : ¬ t.txTrace = s.txTrace := fun htrace => Nat.lt_irrefl _ (htrace ▸ hlen)
  rcases step_end h with ⟨_, rfl⟩ | ⟨e, rest, _, _, hend⟩
  · exact absurd rfl hno
  · cases hend.txEffect with
    | sends hs hp hd _ hphase htrace => exact ⟨_, _, hs, hp, hphase, hd, htrace⟩
    | stays _ htrace _ => exact absurd htrace hno
    | accepts _ htrace => exact absurd htrace hno
    | drains _ _ _ htrace => exact absurd htrace hno
    | completes _ _ _ htrace => exact absurd htrace hno
    | cuts _ htrace => exact absurd htrace hno
    | resets _ htrace =>
      rw [htrace] at hlen
      exact absurd hlen (Nat.not_lt_zero _)

/-- Settles O46: the only effect on the transmitter that adds to the transmit trace is the release of a due head. -/
theorem nothingIsSentBeforeItsDeadline : Obligations.NothingIsSentBeforeItsDeadline := by
  intro s t h hlen
  obtain ⟨g, rest, hs, hp, hphase, hd, htrace⟩ := step_sends h hlen
  exact ⟨g, rest, hs, hp, hphase, hd, htrace⟩

/-- The engine's bytes are neither reserved code: ACK and COMPLETE are other bytes, and a data block is longer. -/
theorem engineBytes_ne_reserved {b : List Byte} (h : engineBytes b) : b ≠ [Proto.nak] ∧ b ≠ [Proto.err] := by
  rcases h with rfl | rfl | ⟨data, hdata⟩
  · exact ⟨by decide, by decide⟩
  · exact ⟨by decide, by decide⟩
  · obtain ⟨hne, c, _, rfl⟩ := dataBlockBytes_spec hdata
    have hlong (x : Byte) : data ++ [c] ≠ [x] := fun he =>
      hne (List.append_inj' (he.trans (List.nil_append [x]).symm) rfl).1
    exact ⟨hlong _, hlong _⟩

/-- Settles O47: what is sent is the head segment, which the invariant says holds the engine's bytes. -/
theorem engineSendsNoErrorCode : Obligations.EngineSendsNoErrorCode := by
  intro s t hinv h hcont hlen
  obtain ⟨g, rest, hs, _, _, _, htrace⟩ := step_sends h hlen
  have hbytes : engineBytes g.bytes := hinv.engineSegments hcont g (hs ▸ List.mem_cons_self)
  obtain ⟨hnak, herr⟩ := engineBytes_ne_reserved hbytes
  exact ⟨g.bytes, htrace, hbytes, hnak, herr⟩

/-! ### What is owed -/

theorem owed_waitDelay {s : State} (h : s.txPhase = .waitDelay) : owed s = s.txSegs.map Segment.bytes := by
  unfold owed
  rw [h]

theorem owed_handed {s : State} (h : s.txPhase ≠ .waitDelay) : owed s = (s.txSegs.drop 1).map Segment.bytes := by
  unfold owed
  split
  · rename_i hp
    exact absurd hp h
  · rfl

theorem owed_congr {s t : State} (hphase : t.txPhase = s.txPhase) (hsegs : t.txSegs = s.txSegs) : owed t = owed s := by
  unfold owed
  rw [hphase, hsegs]

theorem Completes.handed {s : State} {e : Event} (h : Completes s e) : s.txPhase ≠ .waitDelay := by
  cases h with
  | written hp => simp [hp]
  | drained hp _ => simp [hp]

/-- With the lock free there is no sequence in flight (10_state.md R40). -/
theorem Inv.owed_free {s : State} (h : Inv s) (hfree : s.txActive = false) : owed s = [] := by
  have hidle : s.txPhase = .idle := h.phase.1 hfree
  rw [owed_handed (by simp [hidle]), h.lock.1 hfree]
  rfl

/-- What has been sent with what is owed, which no event but the cuts and a new sequence changes. -/
theorem TxEffect.conserves {s t : State} {e : Event} (h : TxEffect s e t) (hreset : e ≠ .reset)
    (herror : ∀ r, e ≠ .transportError r) :
    t.txTrace.map TxRecord.bytes ++ owed t = s.txTrace.map TxRecord.bytes ++ owed s ∨
      (Accepted s t ∧ t.txTrace = s.txTrace) := by
  cases h with
  | stays hsame htrace _ =>
    left
    rw [htrace, owed_congr hsame.phase hsame.segs]
  | accepts hacc htrace => exact .inr ⟨hacc, htrace⟩
  | @sends g rest hs hp hd hsegs hphase htrace =>
    left
    rw [owed_waitDelay hp, owed_handed (by simp [hphase]), htrace, hsegs, hs]
    simp
  | drains hp hsegs hphase htrace =>
    left
    rw [htrace, owed_handed (s := t) (by simp [hphase]), owed_handed (s := s) (by simp [hp]), hsegs]
  | completes he hsegs hphase htrace =>
    left
    rw [htrace, owed_handed he.handed, ← hsegs]
    rcases hphase with hdelay | ⟨hidle, hnil⟩
    · rw [owed_waitDelay hdelay]
    · rw [owed_handed (by simp [hidle]), hnil]
      rfl
  | cuts he _ => exact absurd he (herror _)
  | resets he _ => exact absurd he hreset

/-- Settles O48: each effect on the transmitter but the two cuts moves bytes from owed to sent or leaves both alone, or
accepts a sequence on a free lock, which owes nothing. -/
theorem sequencesAreNotInterleaved : Obligations.SequencesAreNotInterleaved := by
  intro s t hinv h hcut
  rcases step_end h with ⟨_, rfl⟩ | ⟨e, rest, hp, _, hend⟩
  · exact .inl rfl
  · obtain ⟨hreset, herror⟩ := hcut e rest hp
    rcases hend.txEffect.conserves hreset herror with hsame | ⟨hacc, htrace⟩
    · exact .inl hsame
    · exact .inr ⟨hacc.free, hinv.owed_free hacc.free, hacc.active, hacc.phase, htrace⟩

/-- Settles O52: in WaitDrain the transmitter stays as it is or the confirmed flush completes the segment; the other
effects need another phase, a free lock or one of the two events excluded. -/
theorem drainBlocksProgress : Obligations.DrainBlocksProgress := by
  intro s t e rest hinv hphase hp h hreset herror
  have hactive : s.txActive = true := by
    refine Bool.eq_true_of_not_eq_false fun hfree => ?_
    rw [hinv.phase.1 hfree] at hphase
    cases hphase
  rcases step_end h with ⟨hnone, _⟩ | ⟨e', rest', hp', _, hend⟩
  · rw [hp] at hnone
    cases hnone
  rw [hp] at hp'
  cases hp'
  cases hend.txEffect with
  | stays hsame htrace hproc =>
    exact ⟨htrace, .inr ⟨hsame.phase.trans hphase, hsame.segs, hsame.active.trans hactive, hsame.cont, hproc⟩⟩
  | accepts hacc _ => exact absurd (hactive.symm.trans hacc.free) (by decide)
  | sends _ hdelay _ _ _ _ => exact absurd (hphase.symm.trans hdelay) (by decide)
  | drains hwrite _ _ _ => exact absurd (hphase.symm.trans hwrite) (by decide)
  | completes he _ _ htrace =>
    refine ⟨htrace, .inl ?_⟩
    generalize hev : e.event = ev at he
    cases he with
    | written hwrite => exact absurd (hphase.symm.trans hwrite) (by decide)
    | drained _ hq => exact ⟨rfl, hq⟩
  | cuts he _ => exact absurd he (herror _)
  | resets he _ => exact absurd he hreset

end Sys2Proof.Machine

/-! PROOFS. The invariant of 10_state.md section 8: it holds at reset, each operation of an event keeps it, and so does
every step. -/

namespace Sys2Proof.Machine

/-! ### Reset -/

/-- A block with nothing in flight and empty buffers meets the invariant. -/
theorem Inv.of_idle {s : State} (hconfig : s.config.ok = true) (hstate : s.pstate = .awaitingCommand)
    (hfbuf : s.fbuf = []) (hpbuf : s.pbuf = []) (hpw : s.pw = none) (hactive : s.txActive = false)
    (hsegs : s.txSegs = []) (hphase : s.txPhase = .idle) (hcont : s.txCont = .noChange)
    (hstamps : s.tRx ≤ s.now ∧ s.tRef ≤ s.now)
    (htrace : s.txTrace.Pairwise (fun a b => a.time ≤ b.time) ∧ ∀ r ∈ s.txTrace, r.time ≤ s.now)
    (himages : ∀ (d : Drive) (h : Handle), s.slots[d] = some h → h.wf = true)
    (hevents : ∀ e ∈ s.pending, e.event.wf = true) : Inv s where
  config := hconfig
  lock := by simp [hactive, hsegs]
  phase := by simp [hactive, hphase]
  cont := fun _ => hcont
  engine := by simp [hstate, hcont, PState.processing]
  arming := by simp [hcont]
  pendingWrite := by simp [hpw, hstate, hcont]
  pendingLength := by simp [hpw]
  frameShort := by simp [hfbuf]
  frameEmpty := fun _ => hfbuf
  payloadEmpty := fun _ => hpbuf
  payloadShort := by simp [hpw]
  segments := by simp [hsegs]
  engineSegments := fun h => absurd hcont h
  stamps := hstamps
  traceOrder := htrace
  images := himages
  events := hevents

theorem initial_ok : Config.initial.ok = true := by
  have hsize : Config.openDefaultSectorSize % (Config.openSectorSizeMax + 1) < Config.openSectorSizeMax + 1 :=
    Nat.mod_lt _ (Nat.succ_pos _)
  simp [Config.ok, Config.initial]
  omega

/-- Settles O8: reset is an idle block, and the bounds the configuration needs hold of its free values. -/
theorem resetMeetsTheInvariant : Obligations.ResetMeetsTheInvariant :=
  .of_idle initial_ok rfl rfl rfl rfl rfl rfl rfl rfl ⟨Nat.le_refl _, Nat.le_refl _⟩ ⟨.nil, fun _ hr => nomatch hr⟩
    reset_images (fun _ he => nomatch he)

theorem Inv.resetNow {s : State} (h : Inv s) : Inv (resetNow s) :=
  .of_idle h.config rfl rfl rfl rfl rfl rfl rfl rfl ⟨Nat.zero_le _, Nat.le_refl _⟩ ⟨.nil, fun _ hr => nomatch hr⟩
    reset_images h.events

theorem Inv.transportError (r : Nat) {s : State} (h : Inv s) : Inv (transportError r s) :=
  .of_idle h.config rfl rfl rfl rfl rfl rfl rfl rfl h.stamps h.traceOrder h.images h.events

/-! ### Operations that touch one register -/

theorem Inv.takeEvent {e : TimedEvent} {rest : List TimedEvent} {s : State} (h : Inv s) (hp : s.pending = e :: rest)
    (ht : s.now ≤ e.time) : Inv (takeEvent e rest s) :=
  { h with
    stamps := ⟨Nat.le_trans h.stamps.1 ht, Nat.le_trans h.stamps.2 ht⟩
    traceOrder := ⟨h.traceOrder.1, fun r hr => Nat.le_trans (h.traceOrder.2 r hr) ht⟩
    events := fun x hx => h.events x (hp ▸ List.mem_cons_of_mem e hx) }

theorem Inv.raise (m : Diagnostic) {s : State} (h : Inv s) : Inv (raise m s) := { h with }

theorem Inv.reply (r : Reply) {s : State} (h : Inv s) : Inv (reply r s) := { h with }

theorem Inv.flushed (n : Nat) {s : State} (h : Inv s) : Inv { s with txQueued := s.txQueued - n } := { h with }

theorem Inv.stampConsumed {s : State} (h : Inv s) : Inv (stampConsumed s) :=
  { h with stamps := ⟨Nat.le_refl _, Nat.le_refl _⟩ }

theorem Inv.unexpected (bytes : List Byte) {s : State} (h : Inv s) : Inv (unexpected bytes s) :=
  { h with stamps := ⟨Nat.le_refl _, h.stamps.2⟩ }

theorem Inv.discardFrame (m : Diagnostic) {s : State} (h : Inv s) : Inv (discardFrame m s) :=
  { h with frameShort := Nat.zero_le 4, frameEmpty := fun _ => rfl }

theorem Inv.setSlot {d : Drive} {x : Option Handle} {s : State} (h : Inv s) (hx : ∀ g, x = some g → g.wf = true) :
    Inv (setSlot d x s) :=
  { h with
    images := fun e g hg => by
      rw [setSlot_get] at hg
      split at hg
      · exact hx g hg
      · exact h.images e g hg }

/-- A drive-port call leaves well-formed images well formed. -/
theorem Inv.writingCall {i : Int} {s u : State} (h : Inv s) (hu : WritingCall i s u) : Inv u := by
  have himages := hu.wf h.images h.config
  have hframe : u = { s with slots := u.slots, driveTrace := u.driveTrace, draws := u.draws } := hu.frame
  rw [hframe]
  exact { h with images := himages }

/-! ### The transmitter -/

theorem Inv.emitWrite {g : Segment} {rest : List Segment} {s : State} (h : Inv s) (hs : s.txSegs = g :: rest) :
    Inv (emitWrite g.bytes s) :=
  have hactive : s.txActive ≠ false := fun hf => by
    rw [h.lock.1 hf] at hs
    cases hs
  { h with
    phase := by simp [hactive]
    traceOrder := by
      refine ⟨List.pairwise_append.2 ⟨h.traceOrder.1, List.pairwise_singleton _ _, fun a ha b hb => ?_⟩, fun r hr => ?_⟩
      · rw [List.mem_singleton.1 hb]
        exact h.traceOrder.2 a ha
      · rcases List.mem_append.1 hr with hr | hr
        · exact h.traceOrder.2 r hr
        · rw [List.mem_singleton.1 hr]
          exact Nat.le_refl _ }

theorem Inv.draining {s : State} (h : Inv s) (hp : s.txPhase = .waitWrite) : Inv { s with txPhase := .waitDrain } :=
  have hactive : s.txActive ≠ false := fun hf => by
    rw [h.phase.1 hf] at hp
    cases hp
  { h with phase := by simp [hactive] }

/-- An external requester's sequence on a free lock. -/
theorem Inv.accepted {segs : List Segment} {s : State} (h : Inv s) (hok : sequenceOk segs = true)
    (hfree : s.txActive = false) : Inv (txAccept segs .noChange s) := by
  have hcont : s.txCont = .noChange := h.cont hfree
  have hengine := h.engine
  have hpw := h.pendingWrite
  rw [hcont] at hengine hpw
  simp only [sequenceOk, Bool.and_eq_true, Bool.not_eq_true', List.isEmpty_eq_false_iff, List.all_eq_true] at hok
  exact { h with
    lock := by simp [hok.1]
    phase := by simp
    cont := fun _ => rfl
    engine := hengine
    arming := fun hc => by cases hc
    pendingWrite := hpw
    segments := hok.2
    engineSegments := fun hc => absurd rfl hc }

/-- The pending-write register is empty but while a write is armed or being acknowledged (10_state.md R25). -/
theorem Inv.pw_eq_none {s : State} (h : Inv s) (hstate : s.pstate ≠ .awaitingSectorData)
    (hcont : s.txCont ≠ .toAwaitingSectorData) : s.pw = none := by
  by_contra hpw
  exact (h.pendingWrite.1 hpw).elim hstate hcont

/-- Outside the Processing states no sequence of the engine is in flight (R41, R45). -/
theorem Inv.cont_eq_noChange {s : State} (h : Inv s) (hproc : s.pstate.processing = false) : s.txCont = .noChange := by
  by_contra hcont
  exact absurd (hproc.symm.trans (h.engine.2 hcont)) (by decide)

theorem PState.ne_of_processing {p q : PState} (hp : p.processing = true) (hq : q.processing = false) : p ≠ q := by
  rintro rfl
  exact absurd (hp.symm.trans hq) (by decide)

/-- The end of a segment of a sequence in flight. -/
theorem Inv.completion {s t : State} (h : Inv s) (hphase : s.txPhase ≠ .idle) (ht : CompletionEnd s t) : Inv t := by
  have hactive : s.txActive ≠ false := fun hf => hphase (h.phase.1 hf)
  have hstamps : s.tRx ≤ s.now ∧ s.now ≤ s.now := ⟨h.stamps.1, Nat.le_refl _⟩
  cases ht with
  | @more g rest hs =>
    have hsub : ∀ x ∈ g :: rest, x ∈ s.txSegs := fun x hx => List.mem_of_mem_drop (hs ▸ hx)
    exact { h with
      lock := by simp [hactive]
      phase := by simp [hactive]
      segments := fun x hx => h.segments x (hsub x hx)
      engineSegments := fun hc x hx => h.engineSegments hc x (hsub x hx)
      stamps := hstamps }
  | toAwaitingCommand hs hc =>
    have hproc : s.pstate.processing = true := h.engine.2 (by simp [hc])
    have hsector : s.pstate ≠ .awaitingSectorData := PState.ne_of_processing hproc rfl
    have hfbuf : s.fbuf = [] := h.frameEmpty (PState.ne_of_processing hproc rfl)
    exact .of_idle h.config rfl hfbuf (h.payloadEmpty hsector) (h.pw_eq_none hsector (by simp [hc])) rfl rfl rfl rfl
      hstamps h.traceOrder h.images h.events
  | toAwaitingSectorData hs hc =>
    have hstate : s.pstate = .processingCommand := h.arming hc
    exact { h with
      lock := by simp
      phase := by simp
      cont := fun _ => rfl
      engine := by simp [PState.processing]
      arming := fun hc => by cases hc
      pendingWrite := by simpa using h.pendingWrite.2 (.inr hc)
      frameEmpty := fun _ => h.frameEmpty (by simp [hstate])
      payloadEmpty := fun hn => absurd rfl hn
      payloadShort := fun p hp => (h.pendingLength p hp).1
      segments := fun _ hg => nomatch hg
      engineSegments := fun hc => absurd rfl hc
      stamps := ⟨Nat.le_refl _, Nat.le_refl _⟩ }
  | noChange hs hc =>
    have hengine := h.engine
    have harming := h.arming
    have hpw := h.pendingWrite
    rw [hc] at hengine harming hpw
    exact { h with
      lock := by simp
      phase := by simp
      cont := fun _ => rfl
      engine := hengine
      arming := harming
      pendingWrite := hpw
      segments := fun _ hg => nomatch hg
      engineSegments := fun hc => absurd rfl hc
      stamps := hstamps }

/-! ### Command frames -/

/-- The block gives up what it was doing outside the transmitter: the recovery of 60_exceptions.md R255 with the buffers
empty meets the invariant again. -/
theorem Inv.recovered {s t : State} (h : Inv s) (hproc : s.pstate.processing = false)
    (ht : t = { s with pstate := .awaitingCommand, pw := none, pbuf := [], fbuf := t.fbuf })
    (hfbuf : t.fbuf.length ≤ 4) : Inv t := by
  have hcont := h.cont_eq_noChange hproc
  rw [ht]
  exact { h with
    engine := by simp [hcont, PState.processing]
    arming := by simp [hcont]
    pendingWrite := by simp [hcont]
    pendingLength := fun _ hp => nomatch hp
    frameShort := hfbuf
    frameEmpty := fun hn => absurd rfl hn
    payloadEmpty := fun _ => rfl
    payloadShort := fun _ hp => nomatch hp }

/-- A block that has accepted a frame, or handed a payload over, and has not answered yet: to recover from here would
meet the invariant. -/
structure Working (s : State) : Prop where
  recovered : Inv (recover s)
  proc : s.pstate.processing = true
  fbuf : s.fbuf = []

theorem Working.writingCall {i : Int} {s u : State} (h : Working s) (hu : WritingCall i s u) : Working u := by
  have hframe : u = { s with slots := u.slots, driveTrace := u.driveTrace, draws := u.draws } := hu.frame
  have hrecovered : Inv (recover u) := by
    have himages := hu.wf h.recovered.images h.recovered.config
    rw [hframe]
    exact { h.recovered with images := himages }
  have hproc : u.pstate.processing = true := by
    rw [hframe]
    exact h.proc
  have hfbuf : u.fbuf = [] := by
    rw [hframe]
    exact h.fbuf
  exact ⟨hrecovered, hproc, hfbuf⟩

/-- The engine's own sequence: at least one segment, each of the engine's bytes (43_dispatch.md R186). -/
def EngineSequence (segs : List Segment) : Prop :=
  segs ≠ [] ∧ ∀ g ∈ segs, engineBytes g.bytes

theorem engineBytes_ne_nil {b : List Byte} (h : engineBytes b) : b ≠ [] := by
  rcases h with rfl | rfl | ⟨data, hdata⟩
  · exact List.cons_ne_nil _ _
  · exact List.cons_ne_nil _ _
  · obtain ⟨_, c, _, rfl⟩ := dataBlockBytes_spec hdata
    exact List.concat_ne_nil c data

/-- The free lock takes the engine's sequence (R185). A pending write is set exactly when its end arms the receiver,
which only WRITE's does. -/
theorem Working.accepted {s : State} (h : Working s) {segs : List Segment} {c : Continuation}
    (hsegs : EngineSequence segs) (hcont : c ≠ .noChange)
    (hstate : c = .toAwaitingSectorData → s.pstate = .processingCommand)
    (hpw : s.pw ≠ none ↔ c = .toAwaitingSectorData)
    (hlen : ∀ p, s.pw = some p → 1 ≤ p.len ∧ p.len ≤ s.config.sectorSizeMax) : Inv (txAccept segs c s) := by
  have hr := h.recovered
  have hsector : s.pstate ≠ .awaitingSectorData := PState.ne_of_processing h.proc rfl
  have hpbuf : s.pbuf = [] := hr.payloadEmpty (by simp)
  exact { hr with
    lock := by simp [hsegs.1]
    phase := by simp
    cont := fun hf => by cases hf
    engine := by simp [h.proc, hcont]
    arming := hstate
    pendingWrite := by simpa [hsector] using hpw
    pendingLength := hlen
    frameShort := by simp [h.fbuf]
    frameEmpty := fun _ => h.fbuf
    payloadEmpty := fun _ => hpbuf
    payloadShort := fun p hp => by
      show s.pbuf.length < p.len
      rw [hpbuf]
      exact (hlen p hp).1
    segments := fun g hg => engineBytes_ne_nil (hsegs.2 g hg)
    engineSegments := fun _ => hsegs.2 }

/-- A recovery from a working block, with the diagnostic of its reason. -/
theorem Working.abandoned {s : State} (h : Working s) (m : Diagnostic) : Inv (abandon m s) := { h.recovered with }

theorem ackSeg_engine (c : Config) (x : Bool) : engineBytes (ackSeg c x).bytes := .inl rfl

theorem completeSeg_engine (c : Config) (x : Bool) : engineBytes (completeSeg c x).bytes := .inr (.inl rfl)

theorem engineBytes_data {data : List Byte} {k : Byte} (h : checksum data = some k) : engineBytes (data ++ [k]) :=
  .inr (.inr ⟨data, by simp [dataBlockBytes, h]⟩)

/-- The engine's sequence offered to the lock, held or free, when there is no pending write. -/
theorem Working.answered {s : State} (h : Working s) {segs : List Segment} (hsegs : EngineSequence segs)
    (hpw : s.pw = none) : Inv (engineStart segs .toAwaitingCommand s) := by
  rcases engineStart_cases segs .toAwaitingCommand s with ⟨_, he⟩ | ⟨_, he⟩ <;> rw [he]
  · exact h.accepted hsegs (by decide) (fun hc => by cases hc) (by simp [hpw]) (by simp [hpw])
  · exact h.abandoned _

theorem Working.commandEnd {d : Drive} {s t : State} (h : Working s) (hstate : s.pstate = .processingCommand)
    (hpw : s.pw = none) (ht : CommandEnd d s t) : Inv t := by
  cases ht with
  | silent e => exact h.abandoned _
  | answer x y data k hk =>
    refine h.answered ⟨List.cons_ne_nil _ _, fun g hg => ?_⟩ hpw
    simp only [List.mem_cons, List.not_mem_nil, or_false] at hg
    rcases hg with rfl | rfl | rfl
    · exact ackSeg_engine _ _
    · exact completeSeg_engine _ _
    · exact engineBytes_data hk
  | arm n len hl =>
    have hlen : 1 ≤ len ∧ len ≤ s.config.sectorSizeMax := by simpa [sizeOk] using hl
    have hw : Working { s with pw := some ⟨d, n, len⟩ } := ⟨h.recovered, h.proc, h.fbuf⟩
    have hsegs : EngineSequence [ackSeg s.config false] :=
      ⟨List.cons_ne_nil _ _, fun g hg => List.mem_singleton.1 hg ▸ ackSeg_engine _ _⟩
    rcases engineStart_cases [ackSeg s.config false] .toAwaitingSectorData { s with pw := some ⟨d, n, len⟩ } with
      ⟨_, he⟩ | ⟨_, he⟩ <;> rw [he]
    · refine hw.accepted hsegs (by decide) (fun _ => hstate) (by simp) fun p hp => ?_
      cases hp
      exact hlen
    · exact hw.abandoned _

/-- A command frame, from an idle engine. -/
theorem Inv.frameEnd {s t : State} (h : Inv s) (hstate : s.pstate = .awaitingCommand) (ht : FrameEnd s t) : Inv t := by
  have hproc : s.pstate.processing = false := congrArg PState.processing hstate
  have hpbuf : s.pbuf = [] := h.payloadEmpty (by simp [hstate])
  have hpw : s.pw = none := h.pw_eq_none (by simp [hstate]) (by simp [h.cont_eq_noChange hproc])
  have hback : Inv (backToAwaiting (acceptFrame s)) := h.recovered hproc (by rw [← hpw, ← hpbuf]; rfl) (Nat.zero_le 4)
  cases ht with
  | quiet => exact hback
  | dropped m => exact hback.raise m
  | bad b => exact h.discardFrame _
  | command d u _ hu hend =>
    have hrecovered : recover (acceptFrame s) = backToAwaiting (acceptFrame s) := by
      simp only [recover, backToAwaiting, acceptFrame, hpw]
    have hw : Working (acceptFrame s) := ⟨hrecovered ▸ hback, rfl, rfl⟩
    have hframe : u = { acceptFrame s with slots := u.slots, driveTrace := u.driveTrace, draws := u.draws } := hu.frame
    exact (hw.writingCall hu).commandEnd (by rw [hframe]; rfl) (by rw [hframe]; exact hpw) hend

/-! ### Received bytes -/

/-- No command frame looks at the frame buffer: it is emptied before anything else. -/
theorem FrameEnd.of_appendFrame {bytes : List Byte} {s t : State} (h : FrameEnd (appendFrame bytes s) t) :
    FrameEnd s t := by
  cases h with
  | quiet => exact .quiet
  | dropped m => exact .dropped m
  | bad b => exact .bad b
  | command d u _ hu ht => exact .command d u t hu ht

theorem Inv.afterGap {s v : State} (h : Inv s) (hv : AfterGap s v) : Inv v := by
  rcases hv with rfl | rfl
  · exact h
  · exact h.discardFrame _

theorem AfterGap.pstate {s v : State} (hv : AfterGap s v) : v.pstate = s.pstate := by
  rcases hv with rfl | rfl <;> rfl

theorem Inv.appendFrame {bytes : List Byte} {s : State} (h : Inv s) (hstate : s.pstate = .awaitingCommand)
    (hlen : (s.fbuf ++ bytes).length < 5) : Inv (appendFrame bytes s) :=
  { h with frameShort := Nat.le_of_lt_succ hlen, frameEmpty := fun hn => absurd hstate hn }

theorem Inv.decoderEnd {bytes : List Byte} {s t : State} (h : Inv s) (hstate : s.pstate = .awaitingCommand)
    (ht : DecoderEnd bytes s t) : Inv t := by
  cases ht with
  | command hv hi hexec =>
    exact (h.afterGap hv).frameEnd (hv.pstate.trans hstate) (exec_frame_end hi hexec).of_appendFrame
  | waits hv hlen => exact (h.afterGap hv).appendFrame (hv.pstate.trans hstate) hlen
  | tooLong hv => exact (h.afterGap hv).discardFrame _

theorem Inv.abortPayload (p : PendingWrite) {s : State} (h : Inv s) (hstate : s.pstate = .awaitingSectorData) :
    Inv (abortPayload p s) :=
  (h.raise _).recovered (t := Machine.abortPayload p s) (congrArg PState.processing hstate) rfl h.frameShort

/-- A complete payload on its way to the drive port. -/
theorem Inv.working_handOver {s : State} {p : PendingWrite} (h : Inv s) (hp : InTime p s) (bytes : List Byte) :
    Working (handOver p bytes s) := by
  have hproc : s.pstate.processing = false := congrArg PState.processing hp.armed
  have hfbuf : s.fbuf = [] := h.frameEmpty (by simp [hp.armed])
  unfold handOver dropExcess
  split
  · exact ⟨h.stampConsumed.recovered hproc rfl h.frameShort, rfl, hfbuf⟩
  · exact ⟨(h.stampConsumed.raise _).recovered hproc rfl h.frameShort, rfl, hfbuf⟩

theorem Working.writeSucceeded {s : State} (h : Working s) : Inv (writeSucceeded s) := by
  have hw : Working { s with pw := none } := ⟨h.recovered, h.proc, h.fbuf⟩
  refine hw.answered ⟨List.cons_ne_nil _ _, fun g hg => ?_⟩ rfl
  simp only [List.mem_cons, List.not_mem_nil, or_false] at hg
  rcases hg with rfl | rfl
  · exact ackSeg_engine _ _
  · exact completeSeg_engine _ _

theorem Inv.accumulated {s : State} {p : PendingWrite} {bytes : List Byte} (h : Inv s) (hp : InTime p s)
    (hlen : (s.pbuf ++ bytes).length < p.len) : Inv { Machine.stampConsumed s with pbuf := s.pbuf ++ bytes } :=
  { h.stampConsumed with
    payloadEmpty := fun hn => absurd hp.armed hn
    payloadShort := fun q hq => by
      obtain rfl : p = q := Option.some.inj (hp.pw.symm.trans hq)
      exact hlen }

theorem Inv.receivedEnd {bytes : List Byte} {s t : State} (h : Inv s) (ht : ReceivedEnd bytes s t) : Inv t := by
  cases ht with
  | dropped _ => exact h.unexpected bytes
  | frame hstate hend => exact h.stampConsumed.decoderEnd hstate hend
  | late hstate _ _ hend => exact (h.stampConsumed.abortPayload _ hstate).decoderEnd rfl hend
  | accumulated hp hlen => exact h.accumulated hp hlen
  | written hp hport =>
    exact ((h.working_handOver hp bytes).writingCall (portWriteSector_spec hport).1).writeSucceeded
  | failed hp hport =>
    exact ((h.working_handOver hp bytes).writingCall (portWriteSector_spec hport).1).abandoned _

/-! ### Every event, every step -/

theorem Completes.not_idle {s : State} {e : Event} (h : Completes s e) : s.txPhase ≠ .idle := by
  cases h with
  | written hp => simp [hp]
  | drained hp _ => simp [hp]

theorem Inv.eventEnd {e : Event} {s t : State} (h : Inv s) (hwf : e.wf = true) (ht : EventEnd s e t) : Inv t := by
  cases ht with
  | received hend => exact h.receivedEnd hend
  | aborted hstate _ => exact h.abortPayload _ hstate
  | sent hs _ _ => exact h.emitWrite hs
  | ignored _ => exact h
  | draining hp => exact h.draining hp
  | completed he hend => exact h.completion he.not_idle hend
  | cut r => exact h.transportError r
  | accepted k hok hfree r => exact (h.accepted hok hfree).reply r
  | rejected k segs m r => exact (h.raise m).reply r
  | noSlot _ r => exact h.reply r
  | bound i x d r => exact (h.setSlot fun g hg => Option.some.inj hg ▸ hwf).reply r
  | unbound i d r => exact (h.setSlot fun g hg => by cases hg).reply r
  | flushed n => exact h.flushed n
  | reset => exact h.resetNow

/-- Settles O9: taking the event keeps the invariant, and so does everything the event can end in. -/
theorem everyStepKeepsTheInvariant : Obligations.EveryStepKeepsTheInvariant := by
  intro s t h hstep
  rcases step_end hstep with ⟨_, rfl⟩ | ⟨e, rest, hp, ht, hend⟩
  · exact h
  · have hwf : e.event.wf = true := h.events e (hp ▸ List.mem_cons_self)
    exact (h.takeEvent hp ht).eventEnd hwf hend

end Sys2Proof.Machine

/-! PROOFS. The protocol state event by event, the growth of the traces, and the frame of the command frames. -/

namespace Sys2Proof.Machine

/-! ### The protocol state -/

/-- The two protocol states in which a command frame can leave the block (10_state.md section 11). -/
def AfterFrame (t : State) : Prop :=
  t.pstate = .awaitingCommand ∨ t.pstate = .processingCommand

theorem engineStart_pstate (segs : List Segment) (c : Continuation) (s : State) :
    (engineStart segs c s).pstate = .awaitingCommand ∨ (engineStart segs c s).pstate = s.pstate := by
  rcases engineStart_cases segs c s with ⟨_, h⟩ | ⟨_, h⟩ <;> rw [h]
  · exact .inr rfl
  · exact .inl rfl

theorem CommandEnd.pstate {d : Drive} {s t : State} (h : CommandEnd d s t) (hs : s.pstate = .processingCommand) :
    AfterFrame t := by
  cases h with
  | silent e => exact .inl rfl
  | answer x y data k hk => exact (engineStart_pstate _ _ s).imp_right fun h => h.trans hs
  | arm n len hl => exact (engineStart_pstate _ _ _).imp_right fun h => h.trans hs

theorem WritingCall.pstate {i : Int} {s t : State} (h : WritingCall i s t) : t.pstate = s.pstate := by
  have hframe : t = { s with slots := t.slots, driveTrace := t.driveTrace, draws := t.draws } := h.frame
  rw [hframe]

theorem FrameEnd.pstate {s t : State} (h : FrameEnd s t) (hs : s.pstate = .awaitingCommand) : AfterFrame t := by
  cases h with
  | quiet => exact .inl rfl
  | dropped m => exact .inl rfl
  | bad b => exact .inl hs
  | command d u _ hu ht => exact ht.pstate hu.pstate

theorem DecoderEnd.pstate {bytes : List Byte} {s t : State} (h : DecoderEnd bytes s t)
    (hs : s.pstate = .awaitingCommand) : AfterFrame t := by
  cases h with
  | command hv hi hexec => exact (exec_frame_end hi hexec).pstate (hv.pstate.trans hs)
  | waits hv _ => exact .inl (hv.pstate.trans hs)
  | tooLong hv => exact .inl (hv.pstate.trans hs)

theorem writeSucceeded_pstate (s : State) :
    (writeSucceeded s).pstate = .awaitingCommand ∨ (writeSucceeded s).pstate = s.pstate :=
  engineStart_pstate _ _ { s with pw := none }

theorem ReceivedEnd.transition {bytes : List Byte} {s t : State} (h : ReceivedEnd bytes s t) :
    transitionAllowed s t (some (.rxChunk bytes)) := by
  have hnow : t.now = s.now := h.engineFrame.now
  cases h with
  | dropped hproc =>
    cases hs : s.pstate with
    | processingCommand => simp [transitionAllowed, hs]
    | processingData => simp [transitionAllowed, hs]
    | awaitingCommand => simp [hs, PState.processing] at hproc
    | awaitingSectorData => simp [hs, PState.processing] at hproc
  | frame hs ht =>
    have hafter : AfterFrame t := ht.pstate hs
    simp only [transitionAllowed, hs]
    exact hafter
  | late hs _ hgap ht =>
    have hafter : AfterFrame t := ht.pstate rfl
    simp only [transitionAllowed, hs, hnow, hgap, if_true]
    exact hafter
  | accumulated hp _ =>
    simp [transitionAllowed, hp.armed, Nat.not_lt.2 hp.gap]
  | @written p hp u hport =>
    have hu : u.pstate = .processingData := (portWriteSector_spec hport).1.pstate
    simp only [transitionAllowed, hp.armed, hnow, Nat.not_lt.2 hp.gap, if_false]
    exact .inr ((writeSucceeded_pstate u).symm.imp_left fun h => h.trans hu)
  | failed hp hport =>
    simp only [transitionAllowed, hp.armed, hnow, Nat.not_lt.2 hp.gap, if_false]
    exact .inr (.inr rfl)

theorem CompletionEnd.transition {s t : State} {e : Event} (he : Completes s e) (h : CompletionEnd s t) :
    transitionAllowed s t (some e) := by
  have hend : t.pstate = s.pstate ∨
      (t.txActive = false ∧ s.txCont = .toAwaitingCommand ∧ t.pstate = .awaitingCommand) ∨
      (t.txActive = false ∧ s.txCont = .toAwaitingSectorData ∧ t.pstate = .awaitingSectorData) := by
    cases h with
    | more _ => exact .inl rfl
    | toAwaitingCommand _ hc => exact .inr (.inl ⟨rfl, hc, rfl⟩)
    | toAwaitingSectorData _ hc => exact .inr (.inr ⟨rfl, hc, rfl⟩)
    | noChange _ _ => exact .inl rfl
  cases he with
  | written _ => exact hend
  | drained _ _ => exact hend

theorem EventEnd.transition {e : Event} {s t : State} (h : EventEnd s e t) : transitionAllowed s t (some e) := by
  cases h with
  | received ht => exact ht.transition
  | aborted hstate _ => exact ⟨hstate, rfl⟩
  | ignored he => rcases he with rfl | rfl <;> exact .inl rfl
  | draining _ => exact .inl rfl
  | completed he ht => exact ht.transition he
  | noSlot he r => rcases he with ⟨i, h, rfl⟩ | ⟨i, rfl⟩ <;> rfl
  | sent _ _ _ => rfl
  | cut r => rfl
  | accepted k _ _ r => rfl
  | rejected k segs m r => rfl
  | bound i h d r => rfl
  | unbound i d r => rfl
  | flushed n => rfl
  | reset => rfl

/-- Settles O17: taking the event changes nothing the table reads but the clock, and each end of the event is in its
row. -/
theorem protocolStateTransitions : Obligations.ProtocolStateTransitions := by
  intro s t _ hstep
  rcases step_end hstep with ⟨hp, rfl⟩ | ⟨e, rest, hp, _, hend⟩
  · rw [hp]
    exact rfl
  · rw [hp]
    exact hend.transition

/-! ### The growth of the traces -/

/-- The drive-port trace grew by one call at most. -/
def DriveGrows (s t : State) : Prop :=
  ∃ l, t.driveTrace = s.driveTrace ++ l ∧ l.length ≤ 1

theorem DriveGrows.of_eq {s t : State} (h : t.driveTrace = s.driveTrace) : DriveGrows s t :=
  ⟨[], h.trans (List.append_nil _).symm, Nat.zero_le 1⟩

theorem DriveGrows.of_logsCall {op : DriveOp} {s t : State} (h : logsCall op s t) : DriveGrows s t := by
  obtain ⟨r, hr⟩ := h
  exact ⟨_, hr, Nat.le_refl 1⟩

theorem portStatus_logsCall {i : Int} {s t : State} {a : Answer (Vector Byte 4)}
    (h : portStatus i s = .answered a t) : logsCall (.status i) s t :=
  onHandle_logsCall h fun _ _ hcall => answer_logsCall hcall

theorem portWriteSector_logsCall {i : Int} {n : Sector} {b : List Byte} {s t : State} {a : Answer Unit}
    (h : portWriteSector i n b s = .answered a t) : logsCall (.writeSector i n b) s t := by
  refine onHandle_logsCall h fun d hd hcall => ?_
  simp only at hcall
  split at hcall
  · exact answer_logsCall hcall
  · cases hcall

theorem formatBound_logsCall {i : Int} {d : Drive} {h : Handle} {s t : State} {a : Answer (List Byte)}
    (hf : formatBound i d h s = .answered a t) : logsCall (.format i) s t := by
  simp only [formatBound] at hf
  split at hf
  case isFalse => cases hf
  case isTrue =>
    split at hf
    case h_1 => exact answer_logsCall hf
    case h_2 =>
      split at hf
      · exact answer_logsCall hf
      · cases hf

theorem portFormat_logsCall {i : Int} {s t : State} {a : Answer (List Byte)}
    (h : portFormat i s = .answered a t) : logsCall (.format i) s t := by
  unfold portFormat at h
  split at h
  case h_1 =>
    cases h
    exact logCall_logsCall _ _ _
  case h_2 d _ =>
    split at h
    case h_1 => exact formatBound_logsCall h
    case h_2 =>
      obtain ⟨r, hr⟩ := answer_logsCall h
      exact ⟨r, hr⟩

theorem execStatus_logsCall {d : Drive} {a1 a2 : Byte} {s t : State} (h : execStatus d a1 a2 s = .next t) :
    logsCall (.status d.val) s t :=
  afterPort_logsCall h (fun _ _ => portStatus_logsCall) fun _ _ => sendData_driveTrace

theorem execFormat_logsCall {d : Drive} {a1 a2 : Byte} {s t : State} (h : execFormat d a1 a2 s = .next t) :
    logsCall (.format d.val) s t :=
  afterPort_logsCall h (fun _ _ => portFormat_logsCall) fun _ _ => sendData_driveTrace

/-- What a command frame does with the drive port: no call, one call that asks, or a FORMAT. -/
inductive FrameCall (i : Instr) (s t : State) : Prop where
  | none (hslots : t.slots = s.slots) (hdraws : t.draws = s.draws) (hdrive : t.driveTrace = s.driveTrace)
      (hpw : t.pw = s.pw)
  | asks {d : Drive} {n : Sector} {a1 a2 : Byte}
      (hi : i = .status d a1 a2 ∨ i = .read d n ∨ i = .write d n ∨ i = .writeVerify d n)
      {op : DriveOp} (hlog : logsCall op s t) {u : State} (hu : ReadOnlyCall d.val (acceptFrame s) u)
      (ht : CommandEnd d u t)
  | formats {d : Drive} {a1 a2 : Byte} (hi : i = .format d a1 a2) {op : DriveOp} (hlog : logsCall op s t) {u : State}
      (hu : WritingCall d.val (acceptFrame s) u) (ht : CommandEnd d u t)

theorem exec_frameCall {i : Instr} (hi : i.format? = .command) {s t : State} (h : exec i s = .next t) :
    FrameCall i s t := by
  cases i with
  | idle d a1 a2 => cases h; exact .none rfl rfl rfl rfl
  | formatMd d a1 a2 => cases h; exact .none rfl rfl rfl rfl
  | poll d a1 a2 => cases h; exact .none rfl rfl rfl rfl
  | unsupported d c a1 a2 => cases h; exact .none rfl rfl rfl rfl
  | notmine dev c a1 a2 => cases h; exact .none rfl rfl rfl rfl
  | badsum dev c a1 a2 k => cases h; exact .none rfl rfl rfl rfl
  | status d a1 a2 =>
    obtain ⟨u, hu, ht⟩ := execStatus_end (x := a1) (y := a2) h
    exact .asks (n := 0) (.inl rfl) (execStatus_logsCall (a1 := a1) (a2 := a2) h) hu ht
  | read d n =>
    obtain ⟨u, hu, ht⟩ := execRead_end h
    exact .asks (a1 := 0) (a2 := 0) (.inr (.inl rfl)) (execRead_logsCall h) hu ht
  | write d n =>
    obtain ⟨u, hu, ht⟩ := beginWrite_end h
    exact .asks (a1 := 0) (a2 := 0) (.inr (.inr (.inl rfl))) (beginWrite_logsCall h) hu ht
  | writeVerify d n =>
    obtain ⟨u, hu, ht⟩ := beginWrite_end h
    exact .asks (a1 := 0) (a2 := 0) (.inr (.inr (.inr rfl))) (beginWrite_logsCall h) hu ht
  | format d a1 a2 =>
    obtain ⟨u, hu, ht⟩ := execFormat_end (x := a1) (y := a2) h
    exact .formats rfl (execFormat_logsCall (a1 := a1) (a2 := a2) h) hu ht
  | payload data => cases hi
  | ack => cases hi
  | complete => cases hi
  | nak => cases hi
  | err => cases hi
  | dataBlock data => cases hi

/-- A command frame makes one drive-port call at most. -/
theorem exec_frame_driveGrows {i : Instr} (hi : i.format? = .command) {s t : State} (h : exec i s = .next t) :
    DriveGrows s t := by
  cases exec_frameCall hi h with
  | none _ _ hdrive _ => exact .of_eq hdrive
  | asks _ hlog _ _ => exact .of_logsCall hlog
  | formats _ hlog _ _ => exact .of_logsCall hlog

theorem AfterGap.driveTrace {s v : State} (hv : AfterGap s v) : v.driveTrace = s.driveTrace := by
  rcases hv with rfl | rfl <;> rfl

theorem DriveGrows.congr_left {s v t : State} (h : DriveGrows v t) (hv : v.driveTrace = s.driveTrace) :
    DriveGrows s t := by
  obtain ⟨l, hl, hlen⟩ := h
  exact ⟨l, hv ▸ hl, hlen⟩

theorem DecoderEnd.driveGrows {bytes : List Byte} {s t : State} (h : DecoderEnd bytes s t) : DriveGrows s t := by
  cases h with
  | @command v _ hv i hi hexec => exact (exec_frame_driveGrows hi hexec).congr_left hv.driveTrace
  | waits hv _ => exact .of_eq hv.driveTrace
  | tooLong hv => exact .of_eq hv.driveTrace

@[simp] theorem dropExcess_driveTrace (excess : List Byte) (s : State) :
    (dropExcess excess s).driveTrace = s.driveTrace := by
  unfold dropExcess
  split <;> rfl

@[simp] theorem handOver_driveTrace (p : PendingWrite) (bytes : List Byte) (s : State) :
    (handOver p bytes s).driveTrace = s.driveTrace :=
  dropExcess_driveTrace _ _

theorem ReceivedEnd.driveGrows {bytes : List Byte} {s t : State} (h : ReceivedEnd bytes s t) : DriveGrows s t := by
  cases h with
  | dropped _ => exact .of_eq rfl
  | frame _ ht => exact ht.driveGrows.congr_left rfl
  | late _ _ _ ht => exact ht.driveGrows.congr_left rfl
  | accumulated _ _ => exact .of_eq rfl
  | written _ hport =>
    obtain ⟨r, hr⟩ := portWriteSector_logsCall hport
    rw [handOver_driveTrace] at hr
    exact ⟨_, (engineStart_driveTrace _ _ _).trans hr, Nat.le_refl 1⟩
  | failed _ hport =>
    obtain ⟨r, hr⟩ := portWriteSector_logsCall hport
    rw [handOver_driveTrace] at hr
    exact ⟨_, hr, Nat.le_refl 1⟩

/-- Every event but a reset adds stamped diagnostics and one drive call at most. -/
theorem EventEnd.grows {e : Event} {s t : State} (h : EventEnd s e t) (he : e ≠ .reset) :
    DiagGrows s t ∧ DriveGrows s t := by
  cases h with
  | received ht => exact ⟨ht.engineFrame.diag, ht.driveGrows⟩
  | completed _ ht => cases ht <;> exact ⟨.of_eq rfl, .of_eq rfl⟩
  | aborted _ _ => exact ⟨.raised rfl, .of_eq rfl⟩
  | cut r => exact ⟨.raised rfl, .of_eq rfl⟩
  | rejected k segs m r => exact ⟨.raised rfl, .of_eq rfl⟩
  | reset => exact absurd rfl he
  | sent _ _ _ => exact ⟨.of_eq rfl, .of_eq rfl⟩
  | ignored _ => exact ⟨.of_eq rfl, .of_eq rfl⟩
  | draining _ => exact ⟨.of_eq rfl, .of_eq rfl⟩
  | accepted k _ _ r => exact ⟨.of_eq rfl, .of_eq rfl⟩
  | noSlot _ r => exact ⟨.of_eq rfl, .of_eq rfl⟩
  | bound i h d r => exact ⟨.of_eq rfl, .of_eq rfl⟩
  | unbound i d r => exact ⟨.of_eq rfl, .of_eq rfl⟩
  | flushed n => exact ⟨.of_eq rfl, .of_eq rfl⟩

/-- Every event but a reset adds one stamped transmission at most. -/
theorem TxEffect.txTrace {s t : State} {e : Event} (h : TxEffect s e t) (he : e ≠ .reset) :
    t.txTrace = s.txTrace ∨ ∃ b, t.txTrace = s.txTrace ++ [⟨b, t.now⟩] := by
  cases h with
  | stays _ htrace _ => exact .inl htrace
  | accepts _ htrace => exact .inl htrace
  | sends _ _ _ _ _ htrace => exact .inr ⟨_, htrace⟩
  | drains _ _ _ htrace => exact .inl htrace
  | completes _ _ _ htrace => exact .inl htrace
  | cuts _ htrace => exact .inl htrace
  | resets hreset _ => exact absurd hreset he

/-- Settles O14: taking the event leaves the traces alone, and what the event adds carries its instant. -/
theorem tracesOnlyGrow : Obligations.TracesOnlyGrow := by
  intro s t hstep hreset
  rcases step_end hstep with ⟨_, rfl⟩ | ⟨e, rest, hp, _, hend⟩
  · exact ⟨.inl rfl, ⟨[], (List.append_nil _).symm, fun _ hr => nomatch hr⟩, DriveGrows.of_eq rfl⟩
  · have he : e.event ≠ .reset := hreset e rest hp
    obtain ⟨⟨l, hl, htime⟩, hdrive⟩ := hend.grows he
    exact ⟨hend.txEffect.txTrace he, ⟨l, hl, fun r hr => (htime r hr).trans hend.clock.2.1.symm⟩, hdrive⟩

/-! ### The frame of the command frames -/

/-- The receiver's registers after a command frame: both stamps and the payload buffer as before, the frame buffer
empty. -/
structure FrameRegisters (s t : State) : Prop where
  tRx : t.tRx = s.tRx
  tRef : t.tRef = s.tRef
  pbuf : t.pbuf = s.pbuf
  fbuf : t.fbuf = []

theorem engineStart_registers {segs : List Segment} {c : Continuation} {s r : State} (h : FrameRegisters r s) :
    FrameRegisters r (engineStart segs c s) := by
  rcases engineStart_cases segs c s with ⟨_, he⟩ | ⟨_, he⟩ <;> rw [he] <;> exact ⟨h.tRx, h.tRef, h.pbuf, h.fbuf⟩

theorem FrameEnd.registers {s t : State} (h : FrameEnd s t) : FrameRegisters s t := by
  cases h with
  | quiet => exact ⟨rfl, rfl, rfl, rfl⟩
  | dropped m => exact ⟨rfl, rfl, rfl, rfl⟩
  | bad b => exact ⟨rfl, rfl, rfl, rfl⟩
  | command d u _ hu ht =>
    have hframe : u = { acceptFrame s with slots := u.slots, driveTrace := u.driveTrace, draws := u.draws } := hu.frame
    have hregs : FrameRegisters s u := by
      rw [hframe]
      exact ⟨rfl, rfl, rfl, rfl⟩
    cases ht with
    | silent e => exact ⟨hregs.tRx, hregs.tRef, hregs.pbuf, hregs.fbuf⟩
    | answer x y data k hk => exact engineStart_registers hregs
    | arm n len hl => exact engineStart_registers ⟨hregs.tRx, hregs.tRef, hregs.pbuf, hregs.fbuf⟩

/-- Only the five commands that call the drive port can touch the pending write. -/
theorem exec_frame_pw {i : Instr} (hi : i.format? = .command) {s t : State} (h : exec i s = .next t) :
    t.pw = s.pw ∨ ∃ d n a1 a2,
      i = .status d a1 a2 ∨ i = .read d n ∨ i = .write d n ∨ i = .writeVerify d n ∨ i = .format d a1 a2 := by
  cases exec_frameCall hi h with
  | none _ _ _ hpw => exact .inl hpw
  | @asks d n a1 a2 hrow =>
    exact .inr ⟨d, n, a1, a2, hrow.imp_right (.imp_right (.imp_right .inl))⟩
  | @formats d a1 a2 hrow => exact .inr ⟨d, 0, a1, a2, .inr (.inr (.inr (.inr hrow)))⟩

/-- Settles O34, from the frame of the engine, the receiver's registers, the one drive call and the pending write. -/
theorem commandFramesLeaveTheRest : Obligations.CommandFramesLeaveTheRest := by
  intro i s t hi h
  have hend : FrameEnd s t := exec_frame_end hi h
  have hf : EngineFrame s t := hend.engineFrame
  have hr : FrameRegisters s t := hend.registers
  obtain ⟨l, hdiag, _⟩ := hf.diag
  obtain ⟨m, hdrive, _⟩ := exec_frame_driveGrows hi h
  refine ⟨hf.config, hf.now, hr.tRx, hr.tRef, hr.pbuf, hr.fbuf, hf.txQueued, hf.txTrace, hf.replies, hf.pending,
    ⟨l, hdiag⟩, ⟨m, hdrive⟩, fun hheld => ?_, exec_frame_pw hi h⟩
  rcases hf.tx with hsame | hacc
  · exact ⟨hsame.active.trans hheld, hsame.segs, hsame.phase, hsame.cont⟩
  · exact absurd (hheld.symm.trans hacc.free) (by decide)

/-! ### The sector store -/

theorem Kept.external_calls {h : ExternalHandle} {g : Handle} (hk : Kept (.external h) g) :
    ∃ h', g = .external h' ∧ h'.id = h.id ∧ h'.geometry = h.geometry ∧
      (∃ l, h'.calls = l ++ h.calls ∧ ∀ c ∈ l, asks c = true) ∧
      ∀ m : Nat, lastWrite h'.calls m = lastWrite h.calls m := by
  cases hk with
  | external _ l hl => exact ⟨_, rfl, rfl, rfl, ⟨l, rfl, hl⟩, lastWrite_append l _ hl⟩

theorem ReadOnlyCall.sameStore {i : Int} {s t : State} (h : ReadOnlyCall i s t) : sameStore s t := by
  intro d
  refine ⟨h.unbound d, fun img himg => ?_, fun x hx => ?_⟩
  · obtain ⟨g, hg, hk⟩ := h.bound d _ himg
    cases hk
    exact hg
  · obtain ⟨g, hg, hk⟩ := h.bound d _ hx
    obtain ⟨x', rfl, hx'⟩ := hk.external_calls
    exact ⟨x', hg, hx'⟩

theorem sameStore.refl (s : State) : sameStore s s := fun _ =>
  ⟨id, fun _ h => h, fun h hs => ⟨h, hs, rfl, rfl, ⟨[], rfl, fun _ hc => nomatch hc⟩, fun _ => rfl⟩⟩

/-- After its drive-port call a command touches neither the drive table nor the count of default images. -/
theorem CommandEnd.store {d : Drive} {s t : State} (h : CommandEnd d s t) :
    t.slots = s.slots ∧ t.draws = s.draws := by
  have hstart (segs : List Segment) (c : Continuation) (u : State) :
      (engineStart segs c u).slots = u.slots ∧ (engineStart segs c u).draws = u.draws := by
    rcases engineStart_cases segs c u with ⟨_, he⟩ | ⟨_, he⟩ <;> rw [he] <;> exact ⟨rfl, rfl⟩
  cases h with
  | silent e => exact ⟨rfl, rfl⟩
  | answer x y data k hk => exact hstart _ _ _
  | arm n len hl => exact hstart _ _ _

theorem slotOf_ne {d e : Drive} (h : some d ≠ some e) : slotOf d.val ≠ some e := by
  rw [slotOf_drive]
  exact h

/-- Settles O35: without a drive-port call the drive table is the same, a call that only asks keeps the store, and
FORMAT's touches its own slot alone. -/
theorem commandFramesLeaveTheStore : Obligations.CommandFramesLeaveTheStore := by
  intro i s t hi h
  cases exec_frameCall hi h with
  | none hslots hdraws _ _ =>
    refine ⟨fun _ => ⟨fun d => ?_, hdraws⟩, fun e _ => by rw [hslots]⟩
    rw [hslots]
    exact sameStore.refl s d
  | @asks d n a1 a2 hrow op _ u hu ht =>
    obtain ⟨hslots, hdraws⟩ := ht.store
    have hdrive : drive? i = some d := by rcases hrow with rfl | rfl | rfl | rfl <;> rfl
    have hframe : u = { acceptFrame s with slots := u.slots, driveTrace := u.driveTrace } := hu.frame
    refine ⟨fun _ => ⟨fun e => ?_, ?_⟩, fun e he => ?_⟩
    · rw [hslots]
      exact hu.sameStore e
    · rw [hdraws, hframe]
      rfl
    · rw [hslots]
      exact hu.other e (slotOf_ne (hdrive ▸ he))
  | @formats d a1 a2 hrow op _ u hu ht =>
    refine ⟨fun hno => absurd hrow (hno d a1 a2), fun e he => ?_⟩
    subst hrow
    rw [ht.store.1]
    exact hu.other e (slotOf_ne he)

end Sys2Proof.Machine

/-! PROOFS. The exact effect of single events: reset, the routing of a received chunk and of a released segment, what
the Frame Decoder throws away, the transmitter's events, the transport error and `unbind`. -/

namespace Sys2Proof.Machine

/-! ### Reset -/

/-- Settles O7: the reset state and the initial configuration, field by field. -/
theorem resetLeavesAnIdleBlock : Obligations.ResetLeavesAnIdleBlock := by
  refine ⟨rfl, rfl, rfl, rfl, rfl, rfl, rfl, rfl, rfl, fun d => ?_, rfl, rfl, rfl, rfl, rfl, rfl, rfl, rfl, rfl, rfl,
    rfl, rfl, rfl⟩
  exact Vector.getElem_replicate d.isLt

/-- Settles O56: the due reset runs `resetNow`, which is the reset state but for the environment's fields. -/
theorem runningResetEmptiesTheBlock : Obligations.RunningResetEmptiesTheBlock := by
  intro s t rest hp ht
  let u := takeEvent ⟨t, .reset⟩ rest s
  refine ⟨resetNow u, step_due hp ht, rfl, rfl, rfl, rfl, rfl, rfl, rfl, rfl, rfl, fun d => ?_, rfl, rfl, rfl, rfl, rfl,
    rfl, rfl⟩
  exact Vector.getElem_replicate d.isLt

/-! ### A received chunk -/

/-- A chunk in AwaitingCommand goes through the gap rule and is appended (41_frame_decoder.md R131). -/
theorem step_rxChunk_awaitingCommand {s : State} {t : Time} {bytes : List Byte} {rest : List TimedEvent}
    (hp : s.pending = ⟨t, .rxChunk bytes⟩ :: rest) (ht : s.now ≤ t) (h1 : 1 ≤ bytes.length)
    (hmax : bytes.length ≤ s.config.rxChunkMax) (hstate : s.pstate = .awaitingCommand) :
    step s = runFetch (fetchFrame bytes (t - s.tRx) (stampConsumed (takeEvent ⟨t, .rxChunk bytes⟩ rest s))) := by
  let u := takeEvent ⟨t, .rxChunk bytes⟩ rest s
  have hu : u.pstate = .awaitingCommand := hstate
  exact (step_rxChunk hp ht h1 hmax).trans (congrArg runFetch (fetchReceived_awaitingCommand hu bytes))

/-- Within the gap rule the chunk resolves with what stands in the buffer. -/
theorem fetchFrame_fresh {bytes : List Byte} {gap : Time} {s : State}
    (hgap : s.fbuf = [] ∨ gap ≤ s.config.tFrameGap) : fetchFrame bytes gap s = resolveFrame (appendFrame bytes s) :=
  congrArg (fun u => resolveFrame (appendFrame bytes u)) (dropStaleFrame_fresh hgap)

/-- Beyond it the chunk resolves on an empty buffer (R132). -/
theorem fetchFrame_stale {bytes : List Byte} {gap : Time} {s : State} (hne : s.fbuf ≠ [])
    (hgap : s.config.tFrameGap < gap) :
    fetchFrame bytes gap s = resolveFrame (appendFrame bytes (discardFrame (.timeoutFrame s.fbuf) s)) :=
  congrArg (fun u => resolveFrame (appendFrame bytes u)) (if_pos ⟨hne, hgap⟩)

theorem decode_command_ok {bytes : List Byte} {i : Instr} (h : decode .command bytes = .ok i) :
    ∃ dev c a1 a2 k, bytes = [dev, c, a1, a2, k] ∧ i = decodeFrame dev c a1 a2 k := by
  unfold decode at h
  split at h
  case h_1 dev c a1 a2 k _ => exact ⟨dev, c, a1, a2, k, rfl, (Except.ok.inj h).symm⟩
  case h_2 => cases h
  all_goals contradiction

/-- Five bytes are a row of the table, run as soon as they stand in the buffer (R135). -/
theorem resolveFrame_decode {s : State} {i : Instr} (h : decode .command s.fbuf = .ok i) :
    resolveFrame s = .run i s := by
  obtain ⟨dev, c, a1, a2, k, hb, rfl⟩ := decode_command_ok h
  unfold resolveFrame
  rw [hb]

/-- Above five bytes the whole buffer is discarded (R134). -/
theorem resolveFrame_tooLong {s : State} (h : 5 < s.fbuf.length) :
    resolveFrame s = .done (discardFrame (.framingError .length s.fbuf) s) := by
  rcases resolveFrame_cases s with ⟨dev, c, a1, a2, k, hb, _⟩ | ⟨hshort, _⟩ | ⟨_, hlong⟩
  · exact absurd (congrArg List.length hb) (Nat.ne_of_gt h)
  · omega
  · exact hlong

/-- Settles O10: the chunk is due, the gap rule keeps the buffer, and five bytes are run as the row they decode to. -/
theorem stepRunsTheDecodedFrame : Obligations.StepRunsTheDecodedFrame := by
  intro s t bytes rest i hp ht h1 hmax hstate hgap hdecode
  let u := stampConsumed (takeEvent ⟨t, .rxChunk bytes⟩ rest s)
  calc step s
      = runFetch (fetchFrame bytes (t - s.tRx) u) := step_rxChunk_awaitingCommand hp ht h1 hmax hstate
    _ = runFetch (resolveFrame (appendFrame bytes u)) := congrArg runFetch (fetchFrame_fresh hgap)
    _ = runFetch (.run i (appendFrame bytes u)) :=
        congrArg runFetch (resolveFrame_decode (s := appendFrame bytes u) hdecode)

/-- Settles O11: the decoder of payloads answers the bytes as they are, and the armed receiver runs them. -/
theorem stepRunsThePayload : Obligations.StepRunsThePayload := by
  intro s t bytes rest i hp ht h1 hmax hstate hdecode
  have hi : i = .payload bytes := by
    cases bytes with
    | nil => cases hdecode
    | cons b bs => exact (Except.ok.inj hdecode).symm
  let u := takeEvent ⟨t, .rxChunk bytes⟩ rest s
  have hfetch : fetchReceived bytes u = .run (.payload bytes) u := by
    unfold fetchReceived
    rw [show u.pstate = .awaitingSectorData from hstate]
  exact ⟨hi, hi ▸ (step_rxChunk hp ht h1 hmax).trans (congrArg runFetch hfetch)⟩

/-- Settles O19. Both stale clauses compare the chunk on the discarded buffer with the chunk on an empty one, and the
over-length is what R134 discards. -/
theorem oldAndLongFramesAreDiscarded : Obligations.OldAndLongFramesAreDiscarded := by
  intro s t bytes rest hp ht h1 hmax hstate
  let u := stampConsumed (takeEvent ⟨t, .rxChunk bytes⟩ rest s)
  let v := discardFrame (.timeoutFrame s.fbuf) u
  have hstep : step s = runFetch (fetchFrame bytes (t - s.tRx) u) :=
    step_rxChunk_awaitingCommand hp ht h1 hmax hstate
  have hstale (hne : s.fbuf ≠ []) (hgap : s.config.tFrameGap < t - s.tRx) :
      step s = runFetch (resolveFrame (appendFrame bytes v)) :=
    hstep.trans (congrArg runFetch (fetchFrame_stale (s := u) hne hgap))
  refine ⟨fun hne hgap => ?empty, fun hne hgap hlen => ?short, fun hgap hlen => ?long⟩
  case empty =>
    let s' : State := { s with fbuf := [], diag := s.diag ++ [⟨.timeoutFrame s.fbuf, t⟩] }
    have hfresh : fetchFrame bytes (t - s.tRx) v = resolveFrame (appendFrame bytes v) := fetchFrame_fresh (.inl rfl)
    have hstep' : step s' = runFetch (fetchFrame bytes (t - s.tRx) v) :=
      step_rxChunk_awaitingCommand (s := s') hp ht h1 hmax hstate
    exact (hstale hne hgap).trans (hstep'.trans (congrArg runFetch hfresh)).symm
  case short =>
    exact (hstale hne hgap).trans (congrArg runFetch (resolveFrame_incomplete (s := appendFrame bytes v) hlen))
  case long =>
    calc step s
        = runFetch (resolveFrame (appendFrame bytes u)) := hstep.trans (congrArg runFetch (fetchFrame_fresh hgap))
      _ = runFetch (.done (discardFrame (.framingError .length (s.fbuf ++ bytes)) (appendFrame bytes u))) :=
          congrArg runFetch (resolveFrame_tooLong (s := appendFrame bytes u) hlen)

/-- In a Processing state a chunk is dropped (R137). -/
theorem fetchReceived_processing {s : State} (h : s.pstate = .processingCommand ∨ s.pstate = .processingData)
    (bytes : List Byte) : fetchReceived bytes s = .done (unexpected bytes s) := by
  unfold fetchReceived
  rcases h with h | h <;> rw [h]

/-- Settles O20: the due chunk is dropped. -/
theorem unexpectedDataIsDropped : Obligations.UnexpectedDataIsDropped := by
  intro s t bytes rest hp ht h1 hmax hstate
  let u := takeEvent ⟨t, .rxChunk bytes⟩ rest s
  exact (step_rxChunk hp ht h1 hmax).trans (congrArg runFetch (fetchReceived_processing (s := u) hstate bytes))

/-! ### The transmitter -/

theorem decode_segment_ok {bytes : List Byte} {i : Instr} (h : decode .segment bytes = .ok i) :
    decodeSegment bytes = some i := by
  simp only [decode] at h
  split at h
  · rename_i hi
    exact hi.trans (congrArg some (Except.ok.inj h))
  · cases h

/-- A due deadline releases the head segment. -/
theorem step_deadline {s : State} {t : Time} {rest : List TimedEvent} (hp : s.pending = ⟨t, .deadline⟩ :: rest)
    (ht : s.now ≤ t) : step s = runSegment (takeEvent ⟨t, .deadline⟩ rest s) :=
  step_due hp ht

theorem fetchSegment_cons {s : State} {g : Segment} {segs : List Segment} (hs : s.txSegs = g :: segs) :
    fetchSegment s = decodeSegment g.bytes := by
  unfold fetchSegment
  rw [hs]

theorem transmitHead_due {s : State} {g : Segment} {segs : List Segment} (hs : s.txSegs = g :: segs)
    (hphase : s.txPhase = .waitDelay) (hd : deadlineOf s g ≤ s.now) :
    transmitHead s = .next (emitWrite g.bytes s) := by
  unfold transmitHead
  rw [hs]
  exact transmit_due hs hphase hd

/-- Settles O12: the row the head decodes to is fetched and run; bytes that are no row go out as they are. -/
theorem stepRunsTheHeadSegment : Obligations.StepRunsTheHeadSegment := by
  intro s t g segs rest hp ht hs
  let u := takeEvent ⟨t, .deadline⟩ rest s
  have hu : u.txSegs = g :: segs := hs
  refine ⟨fun i hi => ?_, fun _ hphase hd => ?_⟩
  · have hfetch : fetchSegment u = some i := (fetchSegment_cons hu).trans (decode_segment_ok hi)
    refine (step_deadline hp ht).trans ?_
    unfold runSegment
    rw [hfetch]
    rfl
  · calc step s
        = transmitHead u := (step_deadline hp ht).trans (runSegment_eq u)
      _ = .next (emitWrite g.bytes u) := transmitHead_due hu hphase hd

theorem execDataBlock_eq {data : List Byte} {c : Byte} (h : checksum data = some c) (s : State) :
    execDataBlock data s = transmit (data ++ [c]) s := by
  simp [execDataBlock, dataBlockBytes, h]

/-- Settles O45: each row transmits its own bytes, which are the due head's. -/
theorem segmentsAreSentWhenDue : Obligations.SegmentsAreSentWhenDue := by
  intro s g segs i hs hphase hd hrow
  have hexec : exec i s = transmit g.bytes s := by
    rcases hrow with ⟨rfl, hb⟩ | ⟨rfl, hb⟩ | ⟨rfl, hb⟩ | ⟨rfl, hb⟩ | ⟨data, c, rfl, hc, hb⟩ <;> rw [hb]
    case inr.inr.inr.inr => exact execDataBlock_eq hc s
    all_goals rfl
  exact hexec.trans (transmit_due hs hphase hd)

theorem writeDone_ignored {s : State} (h : s.txPhase ≠ .waitWrite) : writeDone s = s := by
  rcases writeDone_cases s with hsame | ⟨_, _, hp, _⟩
  · exact hsame
  · exact absurd hp h

/-- Settles O49: the phase and the drain flag of the head decide what the event does. -/
theorem writeDoneEndsTheWrite : Obligations.WriteDoneEndsTheWrite := by
  intro s t rest hp ht
  let u := takeEvent ⟨t, .writeDone⟩ rest s
  have hstep : step s = .next (writeDone u) := step_writeDone hp ht
  refine ⟨fun hphase => ?_, fun g segs hphase hs hm => ?_, fun g g' segs hphase hs hm => ?_⟩
  · exact hstep.trans (congrArg _ (writeDone_ignored (s := u) hphase))
  · exact hstep.trans (congrArg _ (writeDone_draining (s := u) hphase hs hm))
  · exact hstep.trans (congrArg _ ((writeDone_complete (s := u) hphase hs hm).trans (segmentComplete_more (s := u) hs)))

theorem step_flushed {s : State} {t : Time} {n : Nat} {rest : List TimedEvent}
    (hp : s.pending = ⟨t, .flushed n⟩ :: rest) (ht : s.now ≤ t) :
    step s = flush n (takeEvent ⟨t, .flushed n⟩ rest s) :=
  step_due hp ht

theorem drainDone_ignored {s : State} (h : s.txPhase ≠ .waitDrain) : drainDone s = .next s := by
  unfold drainDone
  split
  · rename_i hp
    exact absurd hp h
  · rfl

theorem drainDone_queued {s : State} (h : s.txPhase = .waitDrain) (hq : s.txQueued ≠ 0) :
    drainDone s = .refused .drainNotFlushed := by
  unfold drainDone
  rw [h]
  exact if_neg hq

/-- Settles O51: a flush is bounded by the queue, and the confirmed drain completes the head segment. -/
theorem drainDoneEndsTheDrain : Obligations.DrainDoneEndsTheDrain := by
  refine ⟨fun s t n rest hp ht => ?_, fun s t rest hp ht => ?_⟩
  · exact ⟨fun hle => (step_flushed hp ht).trans (if_pos hle),
      fun hlt => (step_flushed hp ht).trans (if_neg (Nat.not_le.2 hlt))⟩
  · let u := takeEvent ⟨t, .drainDone⟩ rest s
    have hstep : step s = drainDone u := step_drainDone hp ht
    refine ⟨fun hphase => ?_, fun hphase hq => ?_, fun g g' segs hphase hq hs => ?_⟩
    · exact hstep.trans (drainDone_ignored (s := u) hphase)
    · exact hstep.trans (drainDone_queued (s := u) hphase hq)
    · exact hstep.trans ((drainDone_flushed (s := u) hphase hq).trans
        (congrArg Host.Outcome.next (segmentComplete_more (s := u) hs)))

/-- Settles O54: the due offer of a sequence finds the lock free. -/
theorem freeLockIsTaken : Obligations.FreeLockIsTaken := by
  intro s t k segs rest hp ht hne hbytes hfree
  let u := takeEvent ⟨t, .txStart k segs⟩ rest s
  exact (step_txStart hp ht (sequenceOk_of_nonempty hne hbytes)).trans
    (congrArg _ (externalStart_free (s := u) hfree k segs))

/-! ### The transport error and `unbind` -/

/-- Settles O55: the due error runs the recovery of 60_exceptions.md R247, whose whole effect this is. -/
theorem transportErrorAbandonsTheOperation : Obligations.TransportErrorAbandonsTheOperation := by
  intro s t r rest hp ht
  exact step_due hp ht

theorem unbindSlot_of_outside {i : Int} (hi : i < 0 ∨ 8 ≤ i) (s : State) :
    unbindSlot i s = { s with replies := s.replies ++ [.unbound (.err .invalidDriveIndex)] } := by
  unfold unbindSlot
  rw [slotOf_eq_none hi]

theorem unbindSlot_drive (d : Drive) (s : State) :
    unbindSlot d.val s = { s with slots := s.slots.set d none, replies := s.replies ++ [.unbound (.ok ())] } := by
  unfold unbindSlot
  rw [slotOf_drive]
  rfl

/-- Settles O58: the due `unbind` is handled by `unbindSlot`, whose index either names no slot or names slot `d`. -/
theorem unbindEmptiesTheSlot : Obligations.UnbindEmptiesTheSlot := by
  intro s t i rest hp ht
  let u := takeEvent ⟨t, .unbind i⟩ rest s
  have hstep : step s = .next (unbindSlot i u) := step_due hp ht
  constructor
  · intro houtside
    exact hstep.trans (congrArg _ (unbindSlot_of_outside houtside u))
  · rintro d rfl
    exact hstep.trans (congrArg _ (unbindSlot_drive d u))

/-! ### The index of a drive-port call -/

/-- A forwarding call with an index that names no slot (42_drive_registry.md R150). -/
theorem onHandle_outside {α : Type} {op : DriveOp} {i : Int} (hi : i < 0 ∨ 8 ≤ i) (s : State)
    (f : Drive → Handle → Port α) :
    onHandle op i s f = .answered (.err .invalidDriveIndex) (logCall op (.err .invalidDriveIndex) s) := by
  unfold onHandle
  rw [slotOf_eq_none hi]
  rfl

theorem portFormat_outside {i : Int} (hi : i < 0 ∨ 8 ≤ i) (s : State) :
    portFormat i s = .answered (.err .invalidDriveIndex) (logCall (.format i) (.err .invalidDriveIndex) s) := by
  unfold portFormat
  rw [slotOf_eq_none hi]
  rfl

/-- Settles O60: five operations forward, and `format` tests its index as they do. -/
theorem portValidatesItsIndex : Obligations.PortValidatesItsIndex := by
  intro s i n m b hi
  exact ⟨onHandle_outside hi s _, onHandle_outside hi s _, onHandle_outside hi s _, onHandle_outside hi s _,
    onHandle_outside hi s _, portFormat_outside hi s⟩

end Sys2Proof.Machine

namespace Sys2Proof.Tests

open Sys2Proof.Machine

/-- One state with all the hypotheses of O12's second clause: two bytes that are no row of the table, of an external
requester, whose deadline is the instant of the event. -/
theorem stepRunsTheHeadSegment_external :
    step (coming 1000 .deadline (sending [⟨[1, 2], 1, false⟩] .waitDelay .noChange blk)) =
      .next { sending [⟨[1, 2], 1, false⟩] .waitWrite .noChange blk with
        now := 1000, txTrace := [⟨[1, 2], 1000⟩], txQueued := 2 } :=
  (stepRunsTheHeadSegment _ 1000 ⟨[1, 2], 1, false⟩ [] [] rfl (by decide) rfl).2 (by decide) rfl (by decide)

end Sys2Proof.Tests

/-! PROOFS. The exact effect of the command frames that answer and of PAYLOAD, and what the drive port promises. -/

namespace Sys2Proof.Machine

/-! ### A response offered to the lock -/

/-- Settles O21: the accepted frame goes straight back to AwaitingCommand. -/
theorem idleSendsNothing : Obligations.IdleSendsNothing := by
  intro s d a1 a2
  have hexec : exec (.idle d a1 a2) s = .next (backToAwaiting (acceptFrame s)) := rfl
  exact hexec

/-- The engine's response refused by the lock: the diagnostic and the recovery of 43_dispatch.md R185. -/
def refusedResponse (s : State) : State :=
  recover (raise (.concurrentWriteViolation .engine) s)

/-- The three segments of a response are refused together while another requester holds the lock (R184, R185). -/
theorem sendData_held {data : List Byte} {s : State} (hne : data ≠ []) (hheld : s.txActive = true) (x y : Bool) :
    sendData data x y s = .next (refusedResponse s) := by
  obtain ⟨b, bs, rfl⟩ := List.exists_cons_of_ne_nil hne
  exact (sendData_cons b bs x y s).trans (congrArg _ (engineStart_held hheld _ _))

/-! ### READ -/

theorem portReadSector_bound {d : Drive} {n : Sector} {s : State} {h h' : Handle} {a : Answer (List Byte)}
    (hs : s.slots[d] = some h) (hget : h.getSector s.config.sectorSizeMax n.toNat = (a, h')) :
    portReadSector d.val n s =
      .answered a (logCall (.readSector d.val n) (a.map .bytes) (setSlot d (some h') s)) := by
  unfold portReadSector
  rw [onHandle_bound hs, hget]
  rfl

/-- A sector that the handle returns is sent, with the drains of R176. -/
theorem execRead_bound {d : Drive} {n : Sector} {s : State} {h h' : Handle} {data : List Byte}
    (hs : s.slots[d] = some h) (hget : h.getSector s.config.sectorSizeMax n.toNat = (.ok data, h')) :
    execRead d n s = sendData data s.config.readAckDrain s.config.readDataDrain
      (logCall (.readSector d.val n) (.ok (.bytes data)) (setSlot d (some h') (acceptFrame s))) := by
  unfold execRead
  rw [portReadSector_bound (s := acceptFrame s) hs hget]
  rfl

/-- Settles O26: the sector has a checksum, and the free lock takes the three segments. -/
theorem readAnswers : Obligations.ReadAnswers := by
  intro s d n h h' data hs hget hne hfree
  obtain ⟨c, hc⟩ := checksum_of_ne_nil hne
  let u := logCall (.readSector d.val n) (.ok (.bytes data)) (setSlot d (some h') (acceptFrame s))
  have hu : u.txActive = false := hfree
  exact ⟨c, hc, (execRead_bound hs hget).trans (sendData_free hc hu _ _)⟩

/-- Settles O31: the refusal of the handle is the answer of the call, which aborts the command. -/
theorem handleRefusalIsSilent : Obligations.HandleRefusalIsSilent := by
  intro s d n h h' x hs hget
  show execRead d n s = _
  unfold execRead
  rw [portReadSector_bound (s := acceptFrame s) hs hget]
  rfl

/-- Settles O30: each of the four calls finds no handle, and its failure aborts the command. -/
theorem unboundSlotIsSilent : Obligations.UnboundSlotIsSilent := by
  intro s d n a1 a2 i op hs hrow
  have hport {α : Type} (op : DriveOp) (f : Drive → Handle → Port α) :
      onHandle op (d.val : Int) (acceptFrame s) f = fail op .noDrive (acceptFrame s) :=
    onHandle_unbound (s := acceptFrame s) hs f
  have hwrite : beginWrite d n s =
      .next (abortSilently d .noDrive (logCall (.sectorSize d.val (some n)) (.err .noDrive) (acceptFrame s))) := by
    unfold beginWrite portSectorSize
    rw [hport]
    rfl
  rcases hrow with ⟨rfl, rfl⟩ | ⟨rfl, rfl⟩ | ⟨rfl, rfl⟩ | ⟨rfl, rfl⟩
  · exact execStatus_unbound hs a1 a2
  · show execRead d n s = _
    unfold execRead portReadSector
    rw [hport]
    rfl
  · exact hwrite
  · exact hwrite

/-! ### WRITE with the lock held -/

theorem beginWrite_held {d : Drive} {n : Sector} {s : State} {h h' : Handle} {len : Nat} (hs : s.slots[d] = some h)
    (hsize : h.getSectorSize s.config.sectorSizeMax (some n.toNat) = (len, h')) (hok : sizeOk s len = true)
    (hheld : s.txActive = true) :
    beginWrite d n s = .next (refusedResponse
      (logCall (.sectorSize d.val (some n)) (.ok (.number len)) (setSlot d (some h') (acceptFrame s)))) := by
  unfold beginWrite
  rw [portSectorSize_bound (s := acceptFrame s) hs hsize hok]
  let u := logCall (.sectorSize d.val (some n)) (.ok (.number len)) (setSlot d (some h') (acceptFrame s))
  have hu : { u with pw := some ⟨d, n, len⟩ }.txActive = true := hheld
  exact congrArg Host.Outcome.next (engineStart_held hu _ _)

/-! ### FORMAT -/

theorem foldCarry_fill : foldCarry 255 Proto.fill = 255 := by decide

/-- The fill's checksum is another fill byte (40_checksum.md section 1). -/
theorem checksum_fill (n : Nat) : checksum (List.replicate (n + 1) Proto.fill) = some Proto.fill := by
  have hloop : checksumFrom 255 (List.replicate n Proto.fill) = 255 := by
    induction n with
    | zero => rfl
    | succ n ih => rw [List.replicate_succ, checksumFrom, foldCarry_fill, ih]
  exact congrArg some (BitVec.eq_of_toNat_eq ((checksumCons_toNat _ _).trans hloop))

/-- A fill of at least one byte is sent as the fill of one byte more. -/
theorem sendFill_free {size : Nat} {s : State} (hpos : 1 ≤ size) (hfree : s.txActive = false) :
    sendData (List.replicate size Proto.fill) false true s = .next (txAccept
      [ackSeg s.config false, completeSeg s.config false, ⟨List.replicate (size + 1) Proto.fill, s.config.tData, true⟩]
      .toAwaitingCommand s) := by
  obtain ⟨n, rfl⟩ : ∃ n, size = n + 1 := ⟨size - 1, by omega⟩
  rw [sendData_free (checksum_fill n) hfree, ← List.replicate_succ']

theorem sendFill_held {size : Nat} {s : State} (hpos : 1 ≤ size) (hheld : s.txActive = true) :
    sendData (List.replicate size Proto.fill) false true s = .next (refusedResponse s) :=
  sendData_held (by simp; omega) hheld _ _

/-- How `format` goes through on a bound handle: asked for its size and its count, formatted, asked for its size again,
both sizes such as the environment may report (42_drive_registry.md R157, 92_eei_decisions.md D24). -/
structure Formats (max : Nat) (h h4 : Handle) (size' : Nat) : Prop where
  call : ∃ h1 h2 h3 size count, h.getSectorSize max none = (size, h1) ∧ h1.getSectorCount = (count, h2) ∧
    h2.format size count = (.ok (), h3) ∧ h3.getSectorSize max none = (size', h4) ∧ 1 ≤ size ∧ size ≤ max
  pos : 1 ≤ size'
  le : size' ≤ max

theorem execFormat_bound {d : Drive} {s : State} {h h4 : Handle} {size' : Nat} (hs : s.slots[d] = some h)
    (hf : Formats s.config.sectorSizeMax h h4 size') (a1 a2 : Byte) :
    execFormat d a1 a2 s = sendData (List.replicate size' Proto.fill) false true
      (logCall (.format d.val) (.ok (.bytes (List.replicate size' Proto.fill)))
        (setSlot d (some h4) (acceptFrame s))) := by
  obtain ⟨⟨h1, h2, h3, size, count, hsize, hcount, hformat, hsize', hpos, hmax⟩, hpos', hmax'⟩ := hf
  have hok : sizeOk (acceptFrame s) size = true := by simp [sizeOk, hpos, hmax]
  have hok' : sizeOk (acceptFrame s) size' = true := by simp [sizeOk, hpos', hmax']
  have hport : portFormat d.val (acceptFrame s) = .answered (.ok (List.replicate size' Proto.fill))
      (logCall (.format d.val) (.ok (.bytes (List.replicate size' Proto.fill)))
        (setSlot d (some h4) (acceptFrame s))) := by
    have hslot : (acceptFrame s).slots[d] = some h := hs
    simp only [portFormat, slotOf_drive, hslot, formatBound, acceptFrame_config, hsize, hok, hcount, hformat, hsize',
      hok', if_true, answer]
    rfl
  unfold execFormat
  rw [hport]
  rfl

theorem execFormat_unbound {d : Drive} {s : State} (hs : s.slots[d] = none) (a1 a2 : Byte) :
    execFormat d a1 a2 s = sendData (List.replicate s.config.defaultSectorSize Proto.fill) false true
      (logCall (.format d.val) (.ok (.bytes (List.replicate s.config.defaultSectorSize Proto.fill)))
        (setSlot d (some (freshImage s.config s.draws)) { acceptFrame s with draws := s.draws + 1 })) := by
  have hslot : (acceptFrame s).slots[d] = none := hs
  unfold execFormat portFormat
  rw [slotOf_drive]
  simp only [hslot]
  rfl

/-- Settles O28: the call formats the handle and answers the fill, and the free lock takes the three segments. -/
theorem formatAnswersABoundDrive : Obligations.FormatAnswersABoundDrive := by
  intro s d a1 a2 h h1 h2 h3 h4 size count size' hs hsize hcount hformat hsize' hpos hmax hpos' hmax' hfree
  have hf : Formats s.config.sectorSizeMax h h4 size' :=
    ⟨⟨h1, h2, h3, size, count, hsize, hcount, hformat, hsize', hpos, hmax⟩, hpos', hmax'⟩
  let u := logCall (.format d.val) (.ok (.bytes (List.replicate size' Proto.fill)))
    (setSlot d (some h4) (acceptFrame s))
  have hu : u.txActive = false := hfree
  exact (execFormat_bound hs hf a1 a2).trans (sendFill_free hpos' hu)

/-! ### What a handle just formatted reads as -/

/-- A handle of which no sector has been written, or anything else been asked, since its `format(index)`. -/
inductive JustFormatted : Handle → Prop where
  | image (img : Image) (hdata : img.data = []) : JustFormatted (.reference img)
  | external (h : ExternalHandle) (hcalls : justFormatted h.calls = true) : JustFormatted (.external h)

/-- Each of its sectors is read as fill of the reported size, or refused (20_memory.md R67 (a)). -/
theorem JustFormatted.read {h : Handle} (hf : JustFormatted h) (max n : Nat) :
    (h.getSector max n).1 = .ok (List.replicate (h.getSectorSize max (some n)).1 Proto.fill) ∨
      ∃ x, (h.getSector max n).1 = .err (.handleError x) := by
  cases hf with
  | image img hdata =>
    simp only [Handle.getSector, Image.getSector]
    cases img.inRange n with
    | true =>
      left
      simp [Image.sector, hdata, Memory.read, Image.unlisted, Handle.getSectorSize]
    | false => exact .inr ⟨_, rfl⟩
  | external h hcalls =>
    simp only [Handle.getSector, ExternalHandle.sectorNow, known, hcalls, if_true]
    cases Config.handleSector h.id h.calls n with
    | some _ => exact .inl rfl
    | none => exact .inr ⟨_, rfl⟩

theorem formatted_justFormatted (max size count : Nat) (h : Handle) :
    JustFormatted ((h.formatted size count).getSectorSize max none).2 := by
  cases h with
  | reference img => exact .image _ rfl
  | external h => exact .external _ rfl

theorem freshImage_justFormatted (c : Config) (draw : Nat) : JustFormatted (freshImage c draw) :=
  formatted_justFormatted _ _ _ _

/-- A handle that accepts the format is the formatted one. -/
theorem format_ok {h h' : Handle} {size count : Nat} (hf : h.format size count = (.ok (), h')) :
    h' = h.formatted size count := by
  cases h with
  | reference img => exact (Prod.mk.inj hf).2.symm
  | external h =>
    simp only [Handle.format] at hf
    split at hf
    · exact (Prod.mk.inj hf).2.symm
    · cases (Prod.mk.inj hf).1

/-- Settles O29: the unbound slot takes the fresh image, whose geometry is the configuration's and which has just been
formatted. -/
theorem formatBindsAFreshImage : Obligations.FormatBindsAFreshImage := by
  intro s d a1 a2 hs hpos hfree
  let u := logCall (.format d.val) (.ok (.bytes (List.replicate s.config.defaultSectorSize Proto.fill)))
    (setSlot d (some (freshImage s.config s.draws)) { acceptFrame s with draws := s.draws + 1 })
  have hu : u.txActive = false := hfree
  obtain ⟨hsize, hcount⟩ := freshImage_size s.config s.draws
  exact ⟨(execFormat_unbound hs a1 a2).trans (sendFill_free hpos hu), hsize, hcount,
    (freshImage_justFormatted s.config s.draws).read _⟩

/-! ### PAYLOAD -/

/-- A chunk that completes the payload exactly hands it on (44_sector_write_receiver.md R203). -/
theorem execPayload_persists {s : State} {p : PendingWrite} {bytes : List Byte} (hp : InTime p s)
    (hlen : (s.pbuf ++ bytes).length = p.len) :
    execPayload bytes s = persist p (s.pbuf ++ bytes) (stampConsumed s) :=
  (execPayload_armed hp.armed hp.pw hp.gap bytes).trans (accumulate_complete (s := stampConsumed s) hlen)

/-- What `persist` does once its drive-port call has failed (R205). -/
theorem persist_of_failed {p : PendingWrite} {payload : List Byte} {s t : State} {e : DriveError}
    (hport : portWriteSector p.drive.val p.sector payload { s with pbuf := [], pstate := .processingData } =
      .answered (.err e) t) : persist p payload s = .next (writeFailed p.drive e t) := by
  unfold persist
  rw [hport]

theorem writeSucceeded_held {s : State} (hheld : s.txActive = true) :
    writeSucceeded s = refusedResponse s :=
  engineStart_held (s := { s with pw := none }) hheld _ _

/-- Settles O38: the call finds no handle, or the handle refuses the bytes; its failure ends the payload. -/
theorem failedWriteIsSilent : Obligations.FailedWriteIsSilent := by
  intro s bytes p hstate hpw hgap hlen
  have hpersist := execPayload_persists ⟨hstate, hpw, hgap⟩ hlen
  let u : State := { stampConsumed s with pbuf := [], pstate := .processingData }
  refine ⟨fun hs => ?unbound, fun h h1 h2 size x hs hsize hpos hmax hput => ?refused⟩
  case unbound =>
    have hport : portWriteSector p.drive.val p.sector (s.pbuf ++ bytes) u =
        fail (.writeSector p.drive.val p.sector (s.pbuf ++ bytes)) .noDrive u := onHandle_unbound (s := u) hs _
    exact hpersist.trans (persist_of_failed hport)
  case refused =>
    have hok : sizeOk u size = true := by simp [sizeOk, u, hpos, hmax]
    exact hpersist.trans (persist_of_failed (portWriteSector_bound (s := u) hs hsize hok hput))

/-- Settles O32: each drive-port call succeeds as with a free lock, and the held lock refuses the response. -/
theorem heldLockDropsTheResponse : Obligations.HeldLockDropsTheResponse := by
  refine ⟨fun s d a1 a2 hheld hs hpos => ?fresh, fun s d a1 a2 n h h' hheld hs =>
    ⟨fun st hst => ?status, fun data hget hne => ?read, fun len i hi hsize hpos hmax => ?write,
      fun h1 h2 h3 size count size' hsize hcount hformat hsize' hpos hmax hpos' hmax' => ?format,
      fun bytes len size h1 hstate hpw hgap hlen hsize hpos hmax hput => ?payload⟩⟩
  case fresh =>
    let u := logCall (.format d.val) (.ok (.bytes (List.replicate s.config.defaultSectorSize Proto.fill)))
      (setSlot d (some (freshImage s.config s.draws)) { acceptFrame s with draws := s.draws + 1 })
    have hu : u.txActive = true := hheld
    exact (execFormat_unbound hs a1 a2).trans (sendFill_held hpos hu)
  case status =>
    let u := logCall (.status d.val) (.ok (.bytes st.toList)) (setSlot d (some h') (acceptFrame s))
    have hu : u.txActive = true := hheld
    have hne : st.toList ≠ [] := List.ne_nil_of_length_pos (by simp)
    exact (execStatus_bound hs hst a1 a2).trans (sendData_held hne hu _ _)
  case read =>
    let u := logCall (.readSector d.val n) (.ok (.bytes data)) (setSlot d (some h') (acceptFrame s))
    have hu : u.txActive = true := hheld
    exact (execRead_bound hs hget).trans (sendData_held hne hu _ _)
  case write =>
    have hexec : exec i s = beginWrite d n s := by rcases hi with rfl | rfl <;> rfl
    have hok : sizeOk s len = true := by simp [sizeOk, hpos, hmax]
    exact hexec.trans (beginWrite_held hs hsize hok hheld)
  case format =>
    have hf : Formats s.config.sectorSizeMax h h' size' :=
      ⟨⟨h1, h2, h3, size, count, hsize, hcount, hformat, hsize', hpos, hmax⟩, hpos', hmax'⟩
    let u := logCall (.format d.val) (.ok (.bytes (List.replicate size' Proto.fill)))
      (setSlot d (some h') (acceptFrame s))
    have hu : u.txActive = true := hheld
    exact (execFormat_bound hs hf a1 a2).trans (sendFill_held hpos' hu)
  case payload =>
    let u : State := { stampConsumed s with pbuf := [], pstate := .processingData }
    let v := logCall (.writeSector d.val n (s.pbuf ++ bytes)) (.ok .done) (setSlot d (some h') u)
    have hok : sizeOk u size = true := by simp [sizeOk, u, hpos, hmax]
    have hport : portWriteSector d.val n (s.pbuf ++ bytes) u = .answered (.ok ()) v :=
      portWriteSector_bound (s := u) hs hsize hok hput
    have hv : v.txActive = true := hheld
    calc exec (.payload bytes) s
        = persist ⟨d, n, len⟩ (s.pbuf ++ bytes) (stampConsumed s) :=
          execPayload_persists ⟨hstate, hpw, hgap⟩ hlen
      _ = .next (writeSucceeded v) := persist_of_written (p := ⟨d, n, len⟩) hport
      _ = .next (refusedResponse v) := congrArg Host.Outcome.next (writeSucceeded_held hv)

/-- At or above the expected length the buffer is cut to it and handed on, the rest reported (R203, R207). -/
theorem accumulate_excess {s : State} {p : PendingWrite} {bytes : List Byte} (h : p.len < (s.pbuf ++ bytes).length) :
    accumulate p bytes s = persist p ((s.pbuf ++ bytes).take p.len)
      (raise (.unexpectedData ((s.pbuf ++ bytes).drop p.len) .awaitingSectorData) s) := by
  have hexcess : (s.pbuf ++ bytes).drop p.len ≠ [] := fun hnil => by
    rw [List.drop_eq_nil_iff] at hnil
    omega
  unfold accumulate dropExcess
  rw [if_neg (Nat.not_lt.2 (Nat.le_of_lt h)), if_neg hexcess]

/-- Settles O39: the chunk cut at the expected length completes the payload exactly, on the state in which the rest has
been reported. -/
theorem excessPayloadIsDropped : Obligations.ExcessPayloadIsDropped := by
  intro s bytes p hstate hpw hgap hshort hlong
  let m : Diagnostic := .unexpectedData ((s.pbuf ++ bytes).drop p.len) .awaitingSectorData
  have hcut : s.pbuf ++ bytes.take (p.len - s.pbuf.length) = (s.pbuf ++ bytes).take p.len := by
    rw [List.take_append, List.take_of_length_le (Nat.le_of_lt hshort)]
  have hlen : (s.pbuf ++ bytes.take (p.len - s.pbuf.length)).length = p.len := by
    rw [hcut, List.length_take]
    omega
  calc exec (.payload bytes) s
      = accumulate p bytes (stampConsumed s) := execPayload_armed hstate hpw hgap bytes
    _ = persist p ((s.pbuf ++ bytes).take p.len) (raise m (stampConsumed s)) :=
        accumulate_excess (s := stampConsumed s) hlong
    _ = persist p (s.pbuf ++ bytes.take (p.len - s.pbuf.length)) (stampConsumed (raise m s)) := by
        rw [hcut]
        rfl
    _ = exec (.payload (bytes.take (p.len - s.pbuf.length))) (raise m s) :=
        (execPayload_persists (s := raise m s) ⟨hstate, hpw, hgap⟩ hlen).symm

/-- Beyond the abort threshold the payload is given up and the chunk goes to the Frame Decoder (R201, R206 (b)). -/
theorem execPayload_late {s : State} {p : PendingWrite} (hstate : s.pstate = .awaitingSectorData)
    (hpw : s.pw = some p) (hgap : s.config.tAbort < s.now - s.tRx) (bytes : List Byte) :
    execPayload bytes s = frameDecoder bytes (s.now - s.tRx) (abortPayload p (stampConsumed s)) := by
  have harmed : (stampConsumed s).pw = some p := hpw
  unfold execPayload sectorWriteReceiver
  rw [hstate, harmed]
  exact if_pos hgap

/-- On an empty frame buffer the age of the chunk does not matter. -/
theorem frameDecoder_empty {s : State} (h : s.fbuf = []) (bytes : List Byte) (gap : Time) :
    frameDecoder bytes gap s = runFetch (resolveFrame (appendFrame bytes s)) :=
  (frameDecoder_eq_runFetch bytes gap s).trans (congrArg runFetch (fetchFrame_fresh (.inl h)))

/-- Settles O40: the late chunk aborts the payload and waits in the empty frame buffer. -/
theorem latePayloadStartsAFrame : Obligations.LatePayloadStartsAFrame := by
  intro s bytes p hstate hpw hgap hfbuf hlen
  let u := abortPayload p (stampConsumed s)
  have hu : u.fbuf = [] := hfbuf
  have hbuf : u.fbuf ++ bytes = bytes := by rw [hu, List.nil_append]
  have happend : appendFrame bytes u = { u with fbuf := bytes } := by unfold appendFrame; rw [hbuf]
  have hshort : (appendFrame bytes u).fbuf.length < 5 := by rw [happend]; exact hlen
  calc exec (.payload bytes) s
      = frameDecoder bytes (s.now - s.tRx) u := execPayload_late hstate hpw hgap bytes
    _ = runFetch (resolveFrame (appendFrame bytes u)) := frameDecoder_empty hu bytes _
    _ = .next (appendFrame bytes u) := congrArg runFetch (resolveFrame_incomplete hshort)
    _ = .next { u with fbuf := bytes } := congrArg Host.Outcome.next happend

/-- Settles O41: PAYLOAD is the routing of a received chunk, which drops it or takes it as part of a frame. -/
theorem payloadWithoutAnAck : Obligations.PayloadWithoutAnAck := by
  intro s bytes
  have hexec : exec (.payload bytes) s = runFetch (fetchReceived bytes s) := (runFetch_received bytes s).symm
  refine ⟨fun hstate => ?_, fun hstate hgap hlen => ?_⟩
  · exact hexec.trans (congrArg runFetch (fetchReceived_processing hstate bytes))
  · calc exec (.payload bytes) s
        = runFetch (fetchFrame bytes (s.now - s.tRx) (stampConsumed s)) :=
          hexec.trans (congrArg runFetch (fetchReceived_awaitingCommand hstate bytes))
      _ = runFetch (.done (appendFrame bytes (stampConsumed s))) :=
          congrArg runFetch (fetchFrame_incomplete (s := stampConsumed s) hgap hlen)

/-- Settles O43: enabled strictly beyond the threshold, the event aborts the payload. -/
theorem abortTimeoutDiscardsThePayload : Obligations.AbortTimeoutDiscardsThePayload := by
  intro s t rest p hp ht hstate hpw
  let u := takeEvent ⟨t, .abortTimeout⟩ rest s
  have hstep : step s = abortTimeout u := step_due hp ht
  have hu : u.pw = some p := hpw
  refine ⟨fun hdue => ?_, fun hearly => ?_⟩
  · have habort : abortTimeout u = .next (abortPayload p u) := by
      unfold abortTimeout
      rw [hu]
      exact if_pos ⟨hstate, hdue⟩
    exact hstep.trans habort
  · exact hstep.trans (if_neg fun hdue => Nat.not_lt.2 hearly hdue.2)

/-! ### The one sector a payload stores -/

/-- What `putSector` does to a reference image: the other sectors read as before. -/
theorem putSector_image (img : Image) (n : Nat) (b : List Byte) (size : Nat) :
    ∃ img', ((Handle.reference img).putSector n b size).2 = .reference img' ∧
      ∀ m : Nat, m ≠ n → img'.getSector m = img.getSector m := by
  simp only [Handle.putSector]
  cases hput : img.putSector n b with
  | none => exact ⟨img, rfl, fun _ _ => rfl⟩
  | some img' => exact ⟨img', rfl, fun m hm => (Image.putSector_getSector hput m).trans (if_neg hm)⟩

/-- From `s` to `t` a reference image of whatever drive keeps every sector but sector `n` of drive `d`. -/
def KeepsOtherSectors (d : Drive) (n : Nat) (s t : State) : Prop :=
  ∀ (e : Drive) (img : Image), s.slots[e] = some (.reference img) →
    ∃ img', t.slots[e] = some (.reference img') ∧ ∀ m : Nat, (e ≠ d ∨ m ≠ n) → img'.getSector m = img.getSector m

theorem KeepsOtherSectors.of_eq {d : Drive} {n : Nat} {s t : State} (h : t.slots = s.slots) :
    KeepsOtherSectors d n s t := fun _ img himg => ⟨img, h ▸ himg, fun _ _ => rfl⟩

theorem portWriteSector_keeps {d : Drive} {n : Sector} {b : List Byte} {s t : State} {a : Answer Unit}
    (h : portWriteSector d.val n b s = .answered a t) : KeepsOtherSectors d n.toNat s t := by
  rcases onHandle_answered h with ⟨_, _, rfl⟩ | ⟨_, _, _, _, rfl⟩ | ⟨d', hd, hi, hs, hf⟩
  · exact .of_eq rfl
  · exact .of_eq rfl
  · rw [slotOf_drive] at hi
    cases hi
    simp only at hf
    split at hf
    case isFalse => cases hf
    case isTrue =>
      obtain ⟨_, rfl⟩ := answer_answered hf
      intro e img himg
      simp only [logCall_slots]
      rw [setSlot_get]
      by_cases hed : e = d
      · subst hed
        rw [hs] at himg
        cases himg
        obtain ⟨img', hput, hother⟩ := putSector_image img n.toNat
          (b.take (img.sectorSize (some n.toNat))) (img.sectorSize (some n.toNat))
        exact ⟨img', (if_pos rfl).trans (congrArg some hput), fun m hm => hother m (hm.resolve_left fun h => h rfl)⟩
      · exact ⟨img, (if_neg hed).trans himg, fun _ _ => rfl⟩

/-- What the end of a payload leaves of the state that the drive-port call left. -/
theorem writeSucceeded_store (s : State) :
    (writeSucceeded s).slots = s.slots ∧ (writeSucceeded s).fbuf = s.fbuf ∧ (writeSucceeded s).draws = s.draws := by
  unfold writeSucceeded
  rcases engineStart_cases _ .toAwaitingCommand { s with pw := none } with ⟨_, he⟩ | ⟨_, he⟩ <;> rw [he] <;>
    exact ⟨rfl, rfl, rfl⟩

theorem handOver_store (p : PendingWrite) (bytes : List Byte) (s : State) :
    (handOver p bytes s).slots = s.slots ∧ (handOver p bytes s).fbuf = s.fbuf ∧
      (handOver p bytes s).draws = s.draws := by
  unfold handOver dropExcess
  split <;> exact ⟨rfl, rfl, rfl⟩

/-- What a chunk within the abort threshold can do to the store, and the two registers it leaves alone. -/
structure PayloadStore (p : PendingWrite) (s t : State) : Prop where
  fbuf : t.fbuf = s.fbuf
  draws : t.draws = s.draws
  other : ∀ e : Drive, e ≠ p.drive → t.slots[e] = s.slots[e]
  sectors : KeepsOtherSectors p.drive p.sector.toNat s t

theorem payloadStore_of_port {p : PendingWrite} {bytes payload : List Byte} {s u t : State} {a : Answer Unit}
    (hport : portWriteSector p.drive.val p.sector payload (handOver p bytes s) = .answered a u)
    (ht : t.slots = u.slots ∧ t.fbuf = u.fbuf ∧ t.draws = u.draws) : PayloadStore p s t := by
  obtain ⟨hcall, hdraws⟩ := portWriteSector_spec hport
  obtain ⟨hslots₀, hfbuf₀, hdraws₀⟩ := handOver_store p bytes s
  obtain ⟨hslots, hfbuf, hdraws'⟩ := ht
  have hframe : u = { handOver p bytes s with slots := u.slots, driveTrace := u.driveTrace, draws := u.draws } :=
    hcall.frame
  have hfbuf₁ : u.fbuf = (handOver p bytes s).fbuf := by rw [hframe]
  refine ⟨hfbuf.trans (hfbuf₁.trans hfbuf₀), hdraws'.trans (hdraws.trans hdraws₀), fun e he => ?_, fun e img himg => ?_⟩
  · have hne : slotOf p.drive.val ≠ some e := slotOf_ne fun h => he (Option.some.inj h).symm
    rw [hslots, hcall.other e hne, hslots₀]
  · rw [hslots]
    exact portWriteSector_keeps hport e img (hslots₀ ▸ himg)

theorem ReceivedEnd.payloadStore {bytes : List Byte} {p : PendingWrite} {s t : State} (h : ReceivedEnd bytes s t)
    (hp : InTime p s) : PayloadStore p s t := by
  have hpending {q : PendingWrite} (hq : InTime q s) : q = p := Option.some.inj (hq.pw.symm.trans hp.pw)
  cases h with
  | dropped hproc =>
    rw [hp.armed] at hproc
    cases hproc
  | frame hstate _ => exact absurd (hp.armed.symm.trans hstate) (by decide)
  | late _ _ hgap _ => exact absurd hp.gap (Nat.not_le.2 hgap)
  | accumulated _ _ => exact ⟨rfl, rfl, fun _ _ => rfl, .of_eq rfl⟩
  | written hq hport =>
    obtain rfl := hpending hq
    exact payloadStore_of_port hport (writeSucceeded_store _)
  | failed hq hport =>
    obtain rfl := hpending hq
    exact payloadStore_of_port hport ⟨rfl, rfl, rfl⟩

/-- Settles O42, from the frame of the engine and what the chunk can do to the store. -/
theorem payloadStoresOneSector : Obligations.PayloadStoresOneSector := by
  intro s t bytes p hstate hpw hgap h
  have hend : ReceivedEnd bytes s t := execPayload_end h
  have hf : EngineFrame s t := hend.engineFrame
  have hs : PayloadStore p s t := hend.payloadStore ⟨hstate, hpw, hgap⟩
  exact ⟨hf.config, hf.now, hs.fbuf, hf.txQueued, hf.txTrace, hf.replies, hf.pending, hs.draws, hs.other, hs.sectors⟩

/-! ### The promises of the registry -/

/-- A successful `format(index)` leaves a handle in the slot that has just been formatted. -/
theorem portFormat_ok {d : Drive} {s t : State} {buf : List Byte}
    (h : portFormat d.val s = .answered (.ok buf) t) : ∃ g, t.slots[d] = some g ∧ JustFormatted g := by
  unfold portFormat at h
  simp only [slotOf_drive] at h
  split at h
  case h_1 hd hs =>
    simp only [formatBound] at h
    split at h
    case isFalse => cases h
    case isTrue =>
      split at h
      case h_1 =>
        obtain ⟨ha, _⟩ := answer_answered h
        cases ha
      case h_2 h3 hformat =>
        split at h
        case isFalse => cases h
        case isTrue =>
          obtain ⟨_, rfl⟩ := answer_answered h
          refine ⟨_, (setSlot_get d d _ s).trans (if_pos rfl), ?_⟩
          rw [format_ok hformat]
          exact formatted_justFormatted _ _ _ _
  case h_2 hs =>
    obtain ⟨_, rfl⟩ := answer_answered h
    exact ⟨_, (setSlot_get d d _ _).trans (if_pos rfl), freshImage_justFormatted _ _⟩

/-- A sector just written reads as written, on a reference image or if the bytes fill the reported size (20_memory.md
R67 (b)). -/
theorem getSector_putSector {h h' : Handle} {n size : Nat} {b : List Byte}
    (hput : h.putSector n b size = (.ok (), h')) (hfull : (∃ img, h = .reference img) ∨ size ≤ b.length) (max : Nat) :
    (h'.getSector max n).1 = .ok b := by
  cases h with
  | reference img =>
    simp only [Handle.putSector] at hput
    split at hput
    case h_2 => cases (Prod.mk.inj hput).1
    case h_1 img' himg =>
      obtain rfl := (Prod.mk.inj hput).2
      have hget : img'.getSector n = some b := (Image.putSector_getSector himg n).trans (if_pos rfl)
      simp only [Handle.getSector, hget]
  | external h =>
    have hlen : ¬ b.length < size := by
      rcases hfull with ⟨img, himg⟩ | hle
      · cases himg
      · omega
    simp only [Handle.putSector] at hput
    split at hput
    case h_2 => cases (Prod.mk.inj hput).1
    case h_1 =>
      obtain rfl := (Prod.mk.inj hput).2
      simp [Handle.getSector, ExternalHandle.sectorNow, ExternalHandle.called, known, justFormatted, lastWrite, hlen]

theorem getSectorSize_reference {h : Handle} {img : Image} (hh : h = .reference img) (max : Nat) (n : Option Nat) :
    (h.getSectorSize max n).2 = .reference img := by
  rw [hh]
  rfl

/-- A successful `writeSector` is the handle's acceptance of the clipped bytes. -/
theorem portWriteSector_ok {d : Drive} {n : Sector} {data : List Byte} {s t : State} {h : Handle}
    (hcall : portWriteSector d.val n data s = .answered (.ok ()) t) (hs : s.slots[d] = some h) :
    ∃ h', (h.getSectorSize s.config.sectorSizeMax (some n.toNat)).2.putSector n.toNat
        (data.take (h.getSectorSize s.config.sectorSizeMax (some n.toNat)).1)
        (h.getSectorSize s.config.sectorSizeMax (some n.toNat)).1 = (.ok (), h') ∧ t.slots[d] = some h' := by
  unfold portWriteSector at hcall
  rw [onHandle_bound hs] at hcall
  simp only at hcall
  split at hcall
  case isFalse => cases hcall
  case isTrue =>
    obtain ⟨ha, rfl⟩ := answer_answered hcall
    exact ⟨_, Prod.ext ha.symm rfl, (setSlot_get d d _ s).trans (if_pos rfl)⟩

/-- Settles O59: what is read after a `format` is what a handle just formatted reads as, what is read after a write is
what the handle accepted, and a status is a vector of four bytes. -/
theorem registryKeepsItsPromises : Obligations.RegistryKeepsItsPromises := by
  refine ⟨fun s s1 s2 d n buf data hformat hread => ?_, fun s s1 d n data h hwrite hs hfull => ?_,
    fun s s1 i st _ => by simp⟩
  · obtain ⟨h, hs1, hf⟩ := portFormat_ok hformat
    refine ⟨h, hs1, ?_⟩
    rw [portReadSector_bound hs1 rfl] at hread
    have hdata : (h.getSector s1.config.sectorSizeMax n.toNat).1 = .ok data := (Port.answered.inj hread).1
    rcases hf.read s1.config.sectorSizeMax n.toNat with hfill | ⟨x, hx⟩
    · exact Answer.ok.inj (hdata.symm.trans hfill)
    · cases hdata.symm.trans hx
  · obtain ⟨h', hput, hs1⟩ := portWriteSector_ok hwrite hs
    have hread := getSector_putSector hput (hfull.imp (fun ⟨img, himg⟩ => ⟨img, getSectorSize_reference himg _ _⟩)
      fun hle => by rw [List.length_take]; omega) s1.config.sectorSizeMax
    exact ⟨_, portReadSector_bound hs1 (Prod.ext hread rfl)⟩

end Sys2Proof.Machine

/-! PROOFS. Noninterference: two states that a view of the block cannot tell apart step to results that it cannot tell
apart. A view may be blind to the traces and to a part of the handles; the traces, the read-only flag and the
diagnostics of a stalled payload are three cases of it. -/

namespace Sys2Proof.Machine

/-! ### What a view sees -/

/-- Two calls give the same answer and leave handles that the view cannot tell apart. -/
def AgreeOn {α : Type} (blur : Handle → Handle) (x y : α × Handle) : Prop :=
  x.1 = y.1 ∧ blur x.2 = blur y.2

/-- A view: `blur` maps to one handle the handles that it cannot tell apart, which is a part of them that no call
reads; `diag` and `traces` say whether it sees the diagnostics, and the other traces and the replies. -/
structure View where
  blur : Handle → Handle
  diag : Prop
  traces : Prop
  status : ∀ {h h'}, blur h = blur h' → AgreeOn blur h.getStatusBytes h'.getStatusBytes
  size : ∀ {h h'} (max n), blur h = blur h' → AgreeOn blur (h.getSectorSize max n) (h'.getSectorSize max n)
  count : ∀ {h h'}, blur h = blur h' → AgreeOn blur h.getSectorCount h'.getSectorCount
  sector : ∀ {h h'} (max n), blur h = blur h' → AgreeOn blur (h.getSector max n) (h'.getSector max n)
  put : ∀ {h h'} (n b size), blur h = blur h' → AgreeOn blur (h.putSector n b size) (h'.putSector n b size)
  format : ∀ {h h'} (size count), blur h = blur h' → AgreeOn blur (h.format size count) (h'.format size count)

/-- The fields in which states of one view may differ. -/
structure Outside where
  slots : Vector (Option Handle) 8
  pending : List TimedEvent
  txTrace : List TxRecord
  diag : List DiagRecord
  driveTrace : List DriveCall
  replies : List Reply

/-- A state with those fields replaced. -/
def State.withOutside (s : State) (o : Outside) : State :=
  { s with
    slots := o.slots, pending := o.pending, txTrace := o.txTrace, diag := o.diag, driveTrace := o.driveTrace,
    replies := o.replies }

/-- Those fields of a state. -/
def State.outside (s : State) : Outside :=
  ⟨s.slots, s.pending, s.txTrace, s.diag, s.driveTrace, s.replies⟩

/-- The same event, or handles to be bound that the view cannot tell apart. -/
inductive AlikeEvent (V : View) : TimedEvent → TimedEvent → Prop where
  | same (e : TimedEvent) : AlikeEvent V e e
  | bind (t : Time) (i : Int) {h h' : Handle} (hh : V.blur h = V.blur h') :
      AlikeEvent V ⟨t, .bind i h⟩ ⟨t, .bind i h'⟩

/-- The fields outside are the same in what the view sees. -/
structure AlikeOutside (V : View) (o o' : Outside) : Prop where
  slots : ∀ d : Drive, o.slots[d].map V.blur = o'.slots[d].map V.blur
  pending : List.Forall₂ (AlikeEvent V) o.pending o'.pending
  txTrace : V.traces → o.txTrace = o'.txTrace
  diag : V.diag → o.diag = o'.diag
  driveTrace : V.traces → o.driveTrace = o'.driveTrace
  replies : V.traces → o.replies = o'.replies

/-- Two states that the view cannot tell apart. -/
inductive Alike (V : View) : State → State → Prop where
  | mk (b : State) {o o' : Outside} (h : AlikeOutside V o o') : Alike V (b.withOutside o) (b.withOutside o')

/-- Two results that the view cannot tell apart; there is no fault to compare (log entry 25). -/
inductive AlikeResult (V : View) : Result → Result → Prop where
  | next {s s' : State} (h : Alike V s s') : AlikeResult V (.next s) (.next s')
  | refused (r : Refusal) : AlikeResult V (.refused r) (.refused r)

/-- Two drive-port calls that the view cannot tell apart. -/
inductive AlikePort (V : View) {α : Type} : Port α → Port α → Prop where
  | answered (a : Answer α) {s s' : State} (h : Alike V s s') : AlikePort V (.answered a s) (.answered a s')
  | refused (r : Refusal) : AlikePort V (.refused r) (.refused r)

/-- The registers of the block that every view sees. -/
structure SameBlock (s s' : State) : Prop where
  config : s'.config = s.config
  now : s'.now = s.now
  pstate : s'.pstate = s.pstate
  fbuf : s'.fbuf = s.fbuf
  tRx : s'.tRx = s.tRx
  pbuf : s'.pbuf = s.pbuf
  pw : s'.pw = s.pw
  txActive : s'.txActive = s.txActive
  txSegs : s'.txSegs = s.txSegs
  txPhase : s'.txPhase = s.txPhase
  tRef : s'.tRef = s.tRef
  txQueued : s'.txQueued = s.txQueued
  draws : s'.draws = s.draws

section

variable {V : View} {s s' : State}

theorem Alike.block (h : Alike V s s') : SameBlock s s' := by
  cases h
  exact ⟨rfl, rfl, rfl, rfl, rfl, rfl, rfl, rfl, rfl, rfl, rfl, rfl, rfl⟩

/-- States with the same block are alike when their other fields are. -/
theorem Alike.of_outside (hs : s' = s.withOutside s'.outside) (h : AlikeOutside V s.outside s'.outside) :
    Alike V s s' := by
  rw [hs]
  exact .mk s h

/-! ### Operations -/

/-- An operation that neither reads nor writes the fields outside. -/
def Inert (f : State → State) : Prop :=
  ∀ s o, f (s.withOutside o) = (f s).withOutside o

theorem Alike.inert {f : State → State} (hf : Inert f) (h : Alike V s s') : Alike V (f s) (f s') := by
  cases h with
  | @mk b o o' ho =>
    rw [hf b o, hf b o']
    exact .mk (f b) ho

theorem Alike.raise (m : Diagnostic) (h : Alike V s s') : Alike V (raise m s) (raise m s') := by
  cases h with
  | @mk b o o' ho =>
    exact .mk b (o := { o with diag := o.diag ++ [⟨m, b.now⟩] }) (o' := { o' with diag := o'.diag ++ [⟨m, b.now⟩] })
      { ho with diag := fun hv => congrArg (· ++ _) (ho.diag hv) }

theorem Alike.logCall (op : DriveOp) (r : Answer DriveValue) (h : Alike V s s') :
    Alike V (logCall op r s) (logCall op r s') := by
  cases h with
  | @mk b o o' ho =>
    exact .mk b (o := { o with driveTrace := o.driveTrace ++ [⟨op, r⟩] })
      (o' := { o' with driveTrace := o'.driveTrace ++ [⟨op, r⟩] })
      { ho with driveTrace := fun hv => congrArg (· ++ _) (ho.driveTrace hv) }

theorem Alike.reply (r : Reply) (h : Alike V s s') : Alike V (reply r s) (reply r s') := by
  cases h with
  | @mk b o o' ho =>
    exact .mk b (o := { o with replies := o.replies ++ [r] }) (o' := { o' with replies := o'.replies ++ [r] })
      { ho with replies := fun hv => congrArg (· ++ _) (ho.replies hv) }

theorem Alike.emitWrite (bytes : List Byte) (h : Alike V s s') : Alike V (emitWrite bytes s) (emitWrite bytes s') := by
  cases h with
  | @mk b o o' ho =>
    exact .mk (Machine.emitWrite bytes b) (o := { o with txTrace := o.txTrace ++ [⟨bytes, b.now⟩] })
      (o' := { o' with txTrace := o'.txTrace ++ [⟨bytes, b.now⟩] })
      { ho with txTrace := fun hv => congrArg (· ++ _) (ho.txTrace hv) }

theorem Alike.setSlot (d : Drive) {x x' : Option Handle} (hx : x.map V.blur = x'.map V.blur) (h : Alike V s s') :
    Alike V (setSlot d x s) (setSlot d x' s') := by
  cases h with
  | @mk b o o' ho =>
    refine .mk b (o := { o with slots := o.slots.set d x }) (o' := { o' with slots := o'.slots.set d x' })
      { ho with slots := fun e => ?_ }
    show ((Machine.setSlot d x (b.withOutside o)).slots[e]).map V.blur =
      ((Machine.setSlot d x' (b.withOutside o')).slots[e]).map V.blur
    rw [setSlot_get, setSlot_get]
    split
    · exact hx
    · exact ho.slots e

theorem Alike.takeEvent {e e' : TimedEvent} {rest rest' : List TimedEvent} (ht : e.time = e'.time)
    (hrest : List.Forall₂ (AlikeEvent V) rest rest') (h : Alike V s s') :
    Alike V (takeEvent e rest s) (takeEvent e' rest' s') := by
  cases h with
  | @mk b o o' ho =>
    unfold Machine.takeEvent
    rw [ht]
    exact .mk { b with now := e'.time } (o := { o with pending := rest }) (o' := { o' with pending := rest' })
      { ho with pending := hrest }

theorem Alike.resetNow (h : Alike V s s') : Alike V (resetNow s) (resetNow s') := by
  cases h with
  | @mk b o o' ho =>
    exact .mk (Machine.resetNow b) (o := ⟨Vector.replicate 8 none, o.pending, [], [], [], []⟩)
      (o' := ⟨Vector.replicate 8 none, o'.pending, [], [], [], []⟩)
      ⟨fun _ => rfl, ho.pending, fun _ => rfl, fun _ => rfl, fun _ => rfl, fun _ => rfl⟩

theorem Alike.abandon (m : Diagnostic) (h : Alike V s s') : Alike V (abandon m s) (abandon m s') :=
  (h.raise m).inert (f := recover) fun _ _ => rfl

theorem Alike.engineStart (segs : List Segment) (c : Continuation) (h : Alike V s s') :
    Alike V (engineStart segs c s) (engineStart segs c s') := by
  have hactive := h.block.txActive
  rcases engineStart_cases segs c s with ⟨hfree, he⟩ | ⟨hheld, he⟩ <;> rw [he]
  · rw [engineStart_free (hactive.trans hfree)]
    exact h.inert fun _ _ => rfl
  · rw [engineStart_held (hactive.trans hheld)]
    exact h.abandon _

/-! ### The drive port -/

theorem Alike.answer {α : Type} (op : DriveOp) (value : α → DriveValue) (d : Drive) {x y : Answer α × Handle}
    (hxy : AgreeOn V.blur x y) (h : Alike V s s') :
    AlikePort V (answer op value d x.2 x.1 s) (answer op value d y.2 y.1 s') := by
  unfold Machine.answer
  rw [← hxy.1]
  exact .answered _ ((h.setSlot d (x := some x.2) (x' := some y.2) (congrArg some hxy.2)).logCall op _)

theorem Alike.slots (h : Alike V s s') (d : Drive) : s.slots[d].map V.blur = s'.slots[d].map V.blur := by
  cases h with
  | mk b ho => exact ho.slots d

theorem Alike.fail {α : Type} (op : DriveOp) (e : DriveError) (h : Alike V s s') :
    AlikePort V (fail op e s : Port α) (fail op e s') :=
  .answered _ (h.logCall op _)

theorem Alike.onHandle {α : Type} (op : DriveOp) (i : Int) {f f' : Drive → Handle → Port α} (h : Alike V s s')
    (hf : ∀ d x x', V.blur x = V.blur x' → AlikePort V (f d x) (f' d x')) :
    AlikePort V (onHandle op i s f) (onHandle op i s' f') := by
  unfold Machine.onHandle
  cases slotOf i with
  | none => exact h.fail op _
  | some d =>
    have hslot := h.slots d
    simp only
    cases hx : s.slots[d] with
    | none =>
      rw [hx] at hslot
      rw [Option.map_eq_none_iff.1 hslot.symm]
      exact h.fail op _
    | some x =>
      rw [hx] at hslot
      obtain ⟨x', hx', hblur⟩ := Option.map_eq_some_iff.1 hslot.symm
      rw [hx']
      exact hf d x x' hblur.symm

theorem Alike.sizeOk (h : Alike V s s') (n : Nat) : sizeOk s' n = sizeOk s n := by
  unfold Machine.sizeOk
  rw [h.block.config]

theorem Alike.portStatus (i : Int) (h : Alike V s s') : AlikePort V (portStatus i s) (portStatus i s') :=
  h.onHandle _ _ fun d x x' hx =>
    h.answer _ _ d (x := (.ok _, x.getStatusBytes.2)) (y := (.ok _, x'.getStatusBytes.2))
      ⟨congrArg Answer.ok (V.status hx).1, (V.status hx).2⟩

theorem Alike.portReadSector (i : Int) (n : Sector) (h : Alike V s s') :
    AlikePort V (portReadSector i n s) (portReadSector i n s') :=
  h.onHandle _ _ fun d x x' hx => by
    rw [h.block.config]
    exact h.answer _ _ d (V.sector _ _ hx)

theorem Alike.portWriteSector (i : Int) (n : Sector) (bytes : List Byte) (h : Alike V s s') :
    AlikePort V (portWriteSector i n bytes s) (portWriteSector i n bytes s') :=
  h.onHandle _ _ fun d x x' hx => by
    obtain ⟨hsize, hblur⟩ := V.size s.config.sectorSizeMax (some n.toNat) hx
    simp only [h.block.config, ← hsize, h.sizeOk]
    split
    · exact h.answer _ _ d (V.put _ _ _ hblur)
    · exact .refused _

theorem Alike.portSectorSize (i : Int) (n : Option Sector) (h : Alike V s s') :
    AlikePort V (portSectorSize i n s) (portSectorSize i n s') :=
  h.onHandle _ _ fun d x x' hx => by
    obtain ⟨hsize, hblur⟩ := V.size s.config.sectorSizeMax (n.map BitVec.toNat) hx
    simp only [h.block.config, ← hsize, h.sizeOk]
    split
    · exact h.answer _ _ d (x := (.ok _, _)) (y := (.ok _, _)) ⟨rfl, hblur⟩
    · exact .refused _

theorem Alike.formatBound (i : Int) (d : Drive) {x x' : Handle} (hx : V.blur x = V.blur x') (h : Alike V s s') :
    AlikePort V (formatBound i d x s) (formatBound i d x' s') := by
  obtain ⟨hsize, hx1⟩ := V.size s.config.sectorSizeMax none hx
  obtain ⟨hcount, hx2⟩ := V.count hx1
  obtain ⟨hformat, hx3⟩ := V.format (x.getSectorSize s.config.sectorSizeMax none).1
    (x.getSectorSize s.config.sectorSizeMax none).2.getSectorCount.1 hx2
  simp only [Machine.formatBound, h.block.config, ← hsize, ← hcount, h.sizeOk]
  split
  case isFalse => exact .refused _
  case isTrue =>
    generalize Handle.format _ _ _ = r at hformat hx3 ⊢
    generalize Handle.format _ _ _ = r' at hformat hx3 ⊢
    obtain ⟨a, x3⟩ := r
    obtain ⟨a', x3'⟩ := r'
    obtain rfl : a = a' := hformat
    cases a with
    | err e => exact h.answer _ _ d (x := (.err e, x3)) (y := (.err e, x3')) ⟨rfl, hx3⟩
    | ok u =>
      obtain ⟨hsize', hx4⟩ := V.size s.config.sectorSizeMax none hx3
      simp only [← hsize']
      split
      · exact h.answer _ _ d (x := (.ok _, _)) (y := (.ok _, _)) ⟨rfl, hx4⟩
      · exact .refused _

theorem Alike.formatFresh (i : Int) (d : Drive) (h : Alike V s s') :
    AlikePort V (formatFresh i d s) (formatFresh i d s') := by
  have himage : freshImage s'.config s'.draws = freshImage s.config s.draws := by
    rw [h.block.config, h.block.draws]
  have hsize : s'.config.defaultSectorSize = s.config.defaultSectorSize := by rw [h.block.config]
  have hdraws : Alike V { s with draws := s.draws + 1 } { s' with draws := s'.draws + 1 } :=
    h.inert (f := fun u => { u with draws := u.draws + 1 }) fun _ _ => rfl
  unfold Machine.formatFresh
  rw [himage, hsize]
  exact hdraws.answer _ _ d (x := (.ok _, _)) (y := (.ok _, _)) ⟨rfl, rfl⟩

theorem Alike.portFormat (i : Int) (h : Alike V s s') : AlikePort V (portFormat i s) (portFormat i s') := by
  unfold Machine.portFormat
  cases slotOf i with
  | none => exact h.fail _ _
  | some d =>
    have hslot := h.slots d
    simp only
    cases hx : s.slots[d] with
    | none =>
      rw [hx] at hslot
      rw [Option.map_eq_none_iff.1 hslot.symm]
      exact h.formatFresh i d
    | some x =>
      rw [hx] at hslot
      obtain ⟨x', hx', hblur⟩ := Option.map_eq_some_iff.1 hslot.symm
      rw [hx']
      exact h.formatBound i d hblur.symm

/-! ### Command frames -/

theorem AlikePort.afterPort {α : Type} {p p' : Port α} {k : α → State → Result} (d : Drive) (hp : AlikePort V p p')
    (hk : ∀ a t t', Alike V t t' → AlikeResult V (k a t) (k a t')) :
    AlikeResult V (afterPort d p k) (afterPort d p' k) := by
  cases hp with
  | refused r => exact .refused r
  | answered a h =>
    cases a with
    | ok v => exact hk v _ _ h
    | err e => exact .next (h.abandon _)

theorem Alike.acceptFrame (h : Alike V s s') : Alike V (acceptFrame s) (acceptFrame s') := h.inert fun _ _ => rfl

theorem Alike.sendData (data : List Byte) (x y : Bool) (h : Alike V s s') :
    AlikeResult V (sendData data x y s) (sendData data x y s') := by
  unfold Machine.sendData
  rw [h.block.config]
  split
  · exact .next (h.engineStart _ _)
  · exact .refused _

theorem Alike.beginWrite (d : Drive) (n : Sector) (h : Alike V s s') :
    AlikeResult V (beginWrite d n s) (beginWrite d n s') :=
  (h.acceptFrame.portSectorSize d.val (some n)).afterPort d fun len t t' ht => by
    have hack : ackSeg t'.config false = ackSeg t.config false := by rw [ht.block.config]
    rw [hack]
    have hpw : Alike V { t with pw := some ⟨d, n, len⟩ } { t' with pw := some ⟨d, n, len⟩ } :=
      ht.inert (f := fun u => { u with pw := some ⟨d, n, len⟩ }) fun _ _ => rfl
    exact .next (hpw.engineStart _ _)

theorem Alike.backToAwaiting (h : Alike V s s') : Alike V (backToAwaiting s) (backToAwaiting s') :=
  h.inert fun _ _ => rfl

/-- A command that only raises its diagnostic. -/
theorem Alike.dropped (m : Diagnostic) (h : Alike V s s') :
    AlikeResult V (.next (Machine.backToAwaiting (Machine.raise m (Machine.acceptFrame s))))
      (.next (Machine.backToAwaiting (Machine.raise m (Machine.acceptFrame s')))) :=
  .next (h.acceptFrame.raise m).backToAwaiting

theorem Alike.discardFrame (m : Diagnostic) (h : Alike V s s') : Alike V (discardFrame m s) (discardFrame m s') :=
  (h.raise m).inert (f := fun u => { u with fbuf := [] }) fun _ _ => rfl

theorem Alike.runFrame (i : Instr) (h : Alike V s s') : AlikeResult V (runFrame i s) (runFrame i s') := by
  cases i with
  | idle d a1 a2 => exact .next h.acceptFrame.backToAwaiting
  | formatMd d a1 a2 => exact h.dropped _
  | poll d a1 a2 => exact h.dropped _
  | unsupported d c a1 a2 => exact h.dropped _
  | notmine dev c a1 a2 => exact h.dropped _
  | badsum dev c a1 a2 k => exact .next (h.discardFrame _)
  | write d n => exact h.beginWrite d n
  | writeVerify d n => exact h.beginWrite d n
  | format d a1 a2 => exact (h.acceptFrame.portFormat d.val).afterPort d fun _ _ _ ht => ht.sendData _ _ _
  | status d a1 a2 => exact (h.acceptFrame.portStatus d.val).afterPort d fun _ _ _ ht => ht.sendData _ _ _
  | read d n =>
    refine (h.acceptFrame.portReadSector d.val n).afterPort d fun data t t' ht => ?_
    rw [ht.block.config]
    exact ht.sendData _ _ _
  | payload data => exact .next h
  | ack => exact .next h
  | complete => exact .next h
  | nak => exact .next h
  | err => exact .next h
  | dataBlock data => exact .next h

/-! ### Received bytes -/

theorem Alike.stampConsumed (h : Alike V s s') : Alike V (stampConsumed s) (stampConsumed s') :=
  h.inert fun _ _ => rfl

theorem Alike.unexpected (bytes : List Byte) (h : Alike V s s') :
    Alike V (unexpected bytes s) (unexpected bytes s') := by
  have hm : Diagnostic.unexpectedData bytes s'.pstate = .unexpectedData bytes s.pstate := by rw [h.block.pstate]
  unfold Machine.unexpected
  rw [hm]
  exact (h.inert (f := fun u => { u with tRx := u.now }) fun _ _ => rfl).raise _

theorem Alike.appendFrame (bytes : List Byte) (h : Alike V s s') :
    Alike V (appendFrame bytes s) (appendFrame bytes s') :=
  h.inert fun _ _ => rfl

theorem Alike.dropStaleFrame (gap : Time) (h : Alike V s s') :
    Alike V (dropStaleFrame gap s) (dropStaleFrame gap s') := by
  unfold Machine.dropStaleFrame
  rw [h.block.fbuf, h.block.config]
  split
  · exact h.discardFrame _
  · exact h

/-- The two fetches are of one row, or both done. -/
inductive AlikeFetch (V : View) : Fetch → Fetch → Prop where
  | run (i : Instr) {s s' : State} (h : Alike V s s') : AlikeFetch V (.run i s) (.run i s')
  | done {s s' : State} (h : Alike V s s') : AlikeFetch V (.done s) (.done s')

theorem Alike.resolveFrame (h : Alike V s s') : AlikeFetch V (resolveFrame s) (resolveFrame s') := by
  unfold Machine.resolveFrame
  rw [h.block.fbuf]
  split
  · exact .run _ h
  · split
    · exact .done h
    · exact .done (h.discardFrame _)

theorem Alike.fetchFrame (bytes : List Byte) (gap : Time) (h : Alike V s s') :
    AlikeFetch V (fetchFrame bytes gap s) (fetchFrame bytes gap s') :=
  ((h.dropStaleFrame gap).appendFrame bytes).resolveFrame

theorem Alike.frameDecoder (bytes : List Byte) (gap : Time) (h : Alike V s s') :
    AlikeResult V (frameDecoder bytes gap s) (frameDecoder bytes gap s') := by
  have hfetch := h.fetchFrame bytes gap
  unfold Machine.frameDecoder
  generalize Machine.fetchFrame bytes gap s = r at hfetch ⊢
  generalize Machine.fetchFrame bytes gap s' = r' at hfetch ⊢
  cases hfetch with
  | run i h => exact h.runFrame i
  | done h => exact .next h

theorem Alike.writeSucceeded (h : Alike V s s') : Alike V (writeSucceeded s) (writeSucceeded s') := by
  have hsegs : [ackSeg s'.config false, completeSeg s'.config s'.config.writeDoneDrain] =
      [ackSeg s.config false, completeSeg s.config s.config.writeDoneDrain] := by rw [h.block.config]
  unfold Machine.writeSucceeded
  rw [hsegs]
  exact (h.inert (f := fun u => { u with pw := none }) fun _ _ => rfl).engineStart _ _

theorem Alike.persist (p : PendingWrite) (payload : List Byte) (h : Alike V s s') :
    AlikeResult V (persist p payload s) (persist p payload s') := by
  have hstart : Alike V { s with pbuf := [], pstate := .processingData }
      { s' with pbuf := [], pstate := .processingData } :=
    h.inert (f := fun u => { u with pbuf := [], pstate := .processingData }) fun _ _ => rfl
  have hport := hstart.portWriteSector p.drive.val p.sector payload
  unfold Machine.persist
  generalize Machine.portWriteSector _ _ _ _ = r at hport ⊢
  generalize Machine.portWriteSector _ _ _ _ = r' at hport ⊢
  cases hport with
  | refused r => exact .refused r
  | answered a h =>
    cases a with
    | ok u => exact .next h.writeSucceeded
    | err e => exact .next (h.abandon _)

theorem Alike.dropExcess (excess : List Byte) (h : Alike V s s') :
    Alike V (dropExcess excess s) (dropExcess excess s') := by
  unfold Machine.dropExcess
  split
  · exact h
  · exact h.raise _

theorem Alike.accumulate (p : PendingWrite) (bytes : List Byte) (h : Alike V s s') :
    AlikeResult V (accumulate p bytes s) (accumulate p bytes s') := by
  unfold Machine.accumulate
  rw [h.block.pbuf]
  split
  · exact .next (h.inert (f := fun u => { u with pbuf := s.pbuf ++ bytes }) fun _ _ => rfl)
  · exact (h.dropExcess _).persist _ _

theorem Alike.abortPayload (p : PendingWrite) (h : Alike V s s') : Alike V (abortPayload p s) (abortPayload p s') := by
  have hm : Diagnostic.timeoutPayload s'.pbuf.length p.len = .timeoutPayload s.pbuf.length p.len := by
    rw [h.block.pbuf]
  unfold Machine.abortPayload
  rw [hm]
  exact (h.raise _).inert (f := fun u => recover { u with pbuf := [] }) fun _ _ => rfl

theorem Alike.sectorWriteReceiver (bytes : List Byte) (gap : Time) (h : Alike V s s') :
    AlikeResult V (sectorWriteReceiver bytes gap s) (sectorWriteReceiver bytes gap s') := by
  unfold Machine.sectorWriteReceiver
  rw [h.block.pw, h.block.config]
  split
  · exact .refused _
  · split
    · exact (h.abortPayload _).frameDecoder _ _
    · exact h.accumulate _ _

theorem Alike.execPayload (bytes : List Byte) (h : Alike V s s') :
    AlikeResult V (execPayload bytes s) (execPayload bytes s') := by
  unfold Machine.execPayload
  rw [h.block.pstate, h.block.now, h.block.tRx]
  cases s.pstate with
  | awaitingSectorData => exact h.stampConsumed.sectorWriteReceiver _ _
  | awaitingCommand => exact h.stampConsumed.frameDecoder _ _
  | processingCommand => exact .next (h.unexpected bytes)
  | processingData => exact .next (h.unexpected bytes)

/-! ### The other events -/

theorem Alike.abortTimeout (h : Alike V s s') : AlikeResult V (abortTimeout s) (abortTimeout s') := by
  unfold Machine.abortTimeout
  rw [h.block.pstate, h.block.config, h.block.now, h.block.tRx, h.block.pw]
  split
  · split
    · exact .next (h.abortPayload _)
    · exact .refused _
  · exact .refused _

theorem Alike.transmitHead (h : Alike V s s') : AlikeResult V (transmitHead s) (transmitHead s') := by
  unfold Machine.transmitHead transmit deadlineOf
  rw [h.block.txSegs, h.block.txPhase, h.block.tRef, h.block.now]
  split
  · exact .refused _
  · split
    · exact .refused _
    · split
      · split
        · exact .next (h.emitWrite _)
        · exact .refused _
      · exact .refused _

theorem sequenceComplete_inert : Inert sequenceComplete := by
  intro s o
  unfold sequenceComplete applyContinuation
  simp only [State.withOutside]
  cases s.txCont <;> rfl

theorem segmentComplete_inert : Inert segmentComplete := by
  intro s o
  have hsegs : (s.withOutside o).txSegs = s.txSegs := rfl
  unfold segmentComplete
  rw [hsegs]
  split
  · exact sequenceComplete_inert { s with tRef := s.now, txSegs := [] } o
  · rfl

theorem writeDone_inert : Inert writeDone := by
  intro s o
  have hphase : (s.withOutside o).txPhase = s.txPhase := rfl
  have hsegs : (s.withOutside o).txSegs = s.txSegs := rfl
  unfold writeDone
  rw [hphase, hsegs]
  split
  · split
    · rfl
    · exact segmentComplete_inert s o
  · rfl

theorem Alike.drainDone (h : Alike V s s') : AlikeResult V (drainDone s) (drainDone s') := by
  unfold Machine.drainDone
  rw [h.block.txPhase, h.block.txQueued]
  split
  · split
    · exact .next (h.inert segmentComplete_inert)
    · exact .refused _
  · exact .next h

theorem Alike.flush (n : Nat) (h : Alike V s s') : AlikeResult V (flush n s) (flush n s') := by
  unfold Machine.flush
  rw [h.block.txQueued]
  split
  · exact .next (h.inert (f := fun u => { u with txQueued := s.txQueued - n }) fun _ _ => rfl)
  · exact .refused _

theorem Alike.transportError (r : Nat) (h : Alike V s s') : Alike V (transportError r s) (transportError r s') :=
  (h.raise (.transportError r)).inert (f := fun u => recover { u with
    txSegs := [], txPhase := .idle, txActive := false, txCont := .noChange, pbuf := [], fbuf := [] }) fun _ _ => rfl

theorem Alike.externalStart (k : Nat) (segs : List Segment) (h : Alike V s s') :
    Alike V (externalStart k segs s) (externalStart k segs s') := by
  cases hactive : s.txActive with
  | false =>
    rw [externalStart_free hactive, externalStart_free (h.block.txActive.trans hactive)]
    exact (h.inert (f := txAccept segs .noChange) fun _ _ => rfl).reply (.txStarted k)
  | true =>
    rw [externalStart_held hactive, externalStart_held (h.block.txActive.trans hactive)]
    exact (h.raise _).reply (.txRefused k)

theorem Alike.bindSlot (i : Int) {x x' : Handle} (hx : V.blur x = V.blur x') (h : Alike V s s') :
    Alike V (bindSlot i x s) (bindSlot i x' s') := by
  unfold Machine.bindSlot
  split
  · exact h.reply _
  · exact (h.setSlot _ (x := some x) (x' := some x') (congrArg some hx)).reply (.bound (.ok ()))

theorem Alike.unbindSlot (i : Int) (h : Alike V s s') : Alike V (unbindSlot i s) (unbindSlot i s') := by
  unfold Machine.unbindSlot
  split
  · exact h.reply _
  · exact (h.setSlot _ (x := none) (x' := none) rfl).reply (.unbound (.ok ()))

theorem Alike.runEvent (e : Event) (h : Alike V s s') : AlikeResult V (runEvent e s) (runEvent e s') := by
  cases e with
  | rxChunk bytes =>
    simp only [Machine.runEvent, runFetch_received, chunkOk, h.block.config]
    split
    · exact h.execPayload bytes
    · exact .refused _
  | abortTimeout => exact h.abortTimeout
  | deadline =>
    simp only [Machine.runEvent, runSegment_eq]
    exact h.transmitHead
  | writeDone => exact .next (h.inert writeDone_inert)
  | drainDone => exact h.drainDone
  | transportError r => exact .next (h.transportError r)
  | txStart k segs =>
    simp only [Machine.runEvent]
    split
    · exact .next (h.externalStart k segs)
    · exact .refused _
  | bind i x => exact .next (h.bindSlot i rfl)
  | unbind i => exact .next (h.unbindSlot i)
  | flushed n => exact h.flush n
  | reset => exact .next h.resetNow

theorem Alike.pending (h : Alike V s s') : List.Forall₂ (AlikeEvent V) s.pending s'.pending := by
  cases h with
  | mk b ho => exact ho.pending

/-- No step tells apart what the view cannot. -/
theorem Alike.step (h : Alike V s s') : AlikeResult V (step s) (step s') := by
  have hpending := h.pending
  unfold Machine.step
  rw [h.block.now]
  cases hp : s.pending with
  | nil =>
    rw [hp] at hpending
    rw [List.forall₂_nil_left_iff.1 hpending]
    exact .next h
  | cons e rest =>
    rw [hp] at hpending
    obtain ⟨e', rest', he, hrest, hp'⟩ := List.forall₂_cons_left_iff.1 hpending
    rw [hp']
    cases he with
    | same _ =>
      simp only
      split
      · exact .refused _
      · exact (h.takeEvent rfl hrest).runEvent _
    | bind t i hh =>
      simp only
      split
      · exact .refused _
      · exact .next ((h.takeEvent rfl hrest).bindSlot i hh)

end

end Sys2Proof.Machine

/-! PROOFS. Three views of the block: blind to the traces, to the read-only flag, and to the diagnostics. -/

namespace Sys2Proof.Machine

/-! ### The views -/

/-- A part of the handles that every call carries along unread makes a view blind to it. -/
def View.blind (blur : Handle → Handle) (diag traces : Prop)
    (status : ∀ h, (blur h).getStatusBytes = h.getStatusBytes.map id blur)
    (size : ∀ max n h, (blur h).getSectorSize max n = (h.getSectorSize max n).map id blur)
    (count : ∀ h, (blur h).getSectorCount = h.getSectorCount.map id blur)
    (sector : ∀ max n h, (blur h).getSector max n = (h.getSector max n).map id blur)
    (put : ∀ n b size h, (blur h).putSector n b size = (h.putSector n b size).map id blur)
    (format : ∀ size count h, (blur h).format size count = (h.format size count).map id blur) : View where
  blur := blur
  diag := diag
  traces := traces
  status := fun {h h'} hh => Prod.mk.inj ((status h).symm.trans ((congrArg _ hh).trans (status h')))
  size := fun {h h'} max n hh => Prod.mk.inj ((size max n h).symm.trans ((congrArg _ hh).trans (size max n h')))
  count := fun {h h'} hh => Prod.mk.inj ((count h).symm.trans ((congrArg _ hh).trans (count h')))
  sector := fun {h h'} max n hh => Prod.mk.inj ((sector max n h).symm.trans ((congrArg _ hh).trans (sector max n h')))
  put := fun {h h'} n b size hh => Prod.mk.inj ((put n b size h).symm.trans ((congrArg _ hh).trans (put n b size h')))
  format := fun {h h'} size count hh =>
    Prod.mk.inj ((format size count h).symm.trans ((congrArg _ hh).trans (format size count h')))

/-- A view that sees the handles whole. -/
def View.wholeHandles (diag traces : Prop) : View :=
  .blind id diag traces (fun _ => rfl) (fun _ _ _ => rfl) (fun _ => rfl) (fun _ _ _ => rfl) (fun _ _ _ _ => rfl)
    (fun _ _ _ => rfl)

/-! ### Equal outside fields -/

theorem Alike.slots_map {V : View} {s s' : State} (h : Alike V s s') :
    s.slots.map (Option.map V.blur) = s'.slots.map (Option.map V.blur) := by
  refine Vector.ext fun i hi => ?_
  rw [Vector.getElem_map, Vector.getElem_map]
  exact h.slots ⟨i, hi⟩

/-- A view of whole handles sees the drive table. -/
theorem Alike.slots_eq {diag traces : Prop} {s s' : State} (h : Alike (.wholeHandles diag traces) s s') :
    s.slots = s'.slots := by
  have hid : Option.map (View.wholeHandles diag traces).blur = id := Option.map_id
  have hmap := h.slots_map
  rw [hid, Vector.map_id, Vector.map_id] at hmap
  exact hmap

theorem AlikeEvent.eq {diag traces : Prop} {e e' : TimedEvent} (h : AlikeEvent (.wholeHandles diag traces) e e') :
    e = e' := by
  cases h with
  | same _ => rfl
  | bind t i hh => exact congrArg (fun x => TimedEvent.mk t (.bind i x)) hh

theorem Alike.pending_eq {diag traces : Prop} {s s' : State} (h : Alike (.wholeHandles diag traces) s s') :
    s.pending = s'.pending :=
  List.forall₂_eq_eq_eq ▸ h.pending.imp fun _ _ => AlikeEvent.eq

theorem AlikeOutside.refl (V : View) (o : Outside) : AlikeOutside V o o where
  slots := fun _ => rfl
  pending := List.forall₂_same.2 fun e _ => .same e
  txTrace := fun _ => rfl
  diag := fun _ => rfl
  driveTrace := fun _ => rfl
  replies := fun _ => rfl

theorem Alike.eq_withOutside {V : View} {s s' : State} (h : Alike V s s') : s' = s.withOutside s'.outside := by
  cases h
  rfl

theorem Alike.traces_eq {V : View} {s s' : State} (h : Alike V s s') (hv : V.traces) :
    s.txTrace = s'.txTrace ∧ s.driveTrace = s'.driveTrace ∧ s.replies = s'.replies := by
  cases h with
  | mk b ho => exact ⟨ho.txTrace hv, ho.driveTrace hv, ho.replies hv⟩

theorem Alike.diag_eq {V : View} {s s' : State} (h : Alike V s s') (hv : V.diag) : s.diag = s'.diag := by
  cases h with
  | mk b ho => exact ho.diag hv

theorem AlikeResult.map_eq {V : View} {f : State → State} {r r' : Result} (h : AlikeResult V r r')
    (hf : ∀ s s', Alike V s s' → f s = f s') : mapResult f r = mapResult f r' := by
  cases h with
  | next h => exact congrArg Host.Outcome.next (hf _ _ h)
  | refused r => rfl

/-! ### The traces -/

theorem Alike.forgetTraces_eq {s s' : State} (h : Alike (.wholeHandles False False) s s') :
    forgetTraces s = forgetTraces s' :=
  calc forgetTraces s
      = s.withOutside ⟨s.slots, s.pending, [], [], [], []⟩ := rfl
    _ = s.withOutside ⟨s'.slots, s'.pending, [], [], [], []⟩ := by rw [h.slots_eq, h.pending_eq]
    _ = forgetTraces s' := congrArg forgetTraces h.eq_withOutside.symm

/-- Settles O15: the two states are alike for the view that is blind to the traces, and so are the results. -/
theorem noRuleReadsTheTraces : Obligations.NoRuleReadsTheTraces := by
  intro s s' h
  have hs' : s' = s.withOutside s'.outside := by
    have hforget : (forgetTraces s).withOutside s'.outside = (forgetTraces s').withOutside s'.outside :=
      congrArg (State.withOutside · s'.outside) h
    exact hforget.symm
  have hslots : (forgetTraces s).slots = (forgetTraces s').slots := congrArg State.slots h
  have hpending : (forgetTraces s).pending = (forgetTraces s').pending := congrArg State.pending h
  have halike : Alike (.wholeHandles False False) s s' := .of_outside hs'
    { slots := fun d => by rw [show s.outside.slots = s'.outside.slots from hslots]
      pending := by
        rw [show s.outside.pending = s'.outside.pending from hpending]
        exact (AlikeOutside.refl _ s'.outside).pending
      txTrace := False.elim
      diag := False.elim
      driveTrace := False.elim
      replies := False.elim }
  exact halike.step.map_eq fun _ _ => Alike.forgetTraces_eq

/-! ### The read-only flag -/

theorem setReadOnly_getSector (b : Bool) (max n : Nat) (h : Handle) :
    (h.setReadOnly b).getSector max n = (h.getSector max n).map id (Handle.setReadOnly b) := by
  cases h with
  | external h =>
    simp only [Handle.setReadOnly, Handle.getSector]
    cases h.sectorNow max n <;> rfl
  | reference img =>
    have hsame : Image.getSector { img with readOnly := b } n = img.getSector n := rfl
    simp only [Handle.setReadOnly, Handle.getSector, hsame]
    cases img.getSector n <;> rfl

theorem setReadOnly_putSector (b : Bool) (n : Nat) (bytes : List Byte) (size : Nat) (h : Handle) :
    (h.setReadOnly b).putSector n bytes size = (h.putSector n bytes size).map id (Handle.setReadOnly b) := by
  cases h with
  | external h =>
    simp only [Handle.setReadOnly, Handle.putSector]
    cases Config.handlePut h.id h.calls n bytes <;> rfl
  | reference img =>
    have hrange : Image.inRange { img with readOnly := b } n = img.inRange n := rfl
    simp only [Handle.setReadOnly, Handle.putSector, Image.putSector, hrange]
    cases img.inRange n <;> rfl

theorem setReadOnly_format (b : Bool) (size count : Nat) (h : Handle) :
    (h.setReadOnly b).format size count = (h.format size count).map id (Handle.setReadOnly b) := by
  cases h with
  | reference img => rfl
  | external h =>
    simp only [Handle.setReadOnly, Handle.format]
    cases Config.handleFormat h.id h.calls size count <;> rfl

/-- The view that is blind to the read-only flag. -/
def View.readOnlyBlind (b : Bool) : View :=
  .blind (Handle.setReadOnly b) True True (fun h => by cases h <;> rfl) (fun _ _ h => by cases h <;> rfl)
    (fun h => by cases h <;> rfl) (setReadOnly_getSector b) (setReadOnly_putSector b) (setReadOnly_format b)

theorem setReadOnly_setReadOnly (b : Bool) (h : Handle) : (h.setReadOnly b).setReadOnly b = h.setReadOnly b := by
  cases h <;> rfl

/-- The event with the flag of a handle to be bound rewritten, as `setReadOnly` does to every coming event. -/
def TimedEvent.setReadOnly (b : Bool) (e : TimedEvent) : TimedEvent :=
  match e.event with
  | .bind i h => { e with event := .bind i (h.setReadOnly b) }
  | _ => e

theorem alikeEvent_setReadOnly (b : Bool) (e : TimedEvent) :
    AlikeEvent (.readOnlyBlind b) (e.setReadOnly b) e := by
  obtain ⟨t, ev⟩ := e
  cases ev with
  | bind i h => exact .bind t i (setReadOnly_setReadOnly b h)
  | _ => exact .same _

theorem AlikeEvent.setReadOnly_eq {b : Bool} {e e' : TimedEvent} (h : AlikeEvent (.readOnlyBlind b) e e') :
    e.setReadOnly b = e'.setReadOnly b := by
  cases h with
  | same _ => rfl
  | bind t i hh => exact congrArg (fun x => TimedEvent.mk t (.bind i x)) hh

theorem setReadOnly_alike (b : Bool) (s : State) : Alike (.readOnlyBlind b) (setReadOnly b s) s :=
  .of_outside rfl
    { AlikeOutside.refl _ s.outside with
      slots := fun d => by
        show ((s.slots.map (Option.map (Handle.setReadOnly b)))[d]).map (Handle.setReadOnly b) = _
        rw [Fin.getElem_fin, Vector.getElem_map, Option.map_map]
        exact congrArg (Option.map · _) (funext (setReadOnly_setReadOnly b))
      pending := List.forall₂_map_left_iff.2 (List.forall₂_same.2 fun e _ => alikeEvent_setReadOnly b e) }

theorem Alike.setReadOnly_eq {b : Bool} {s s' : State} (h : Alike (.readOnlyBlind b) s s') :
    setReadOnly b s = setReadOnly b s' := by
  have hslots : s.slots.map (Option.map (Handle.setReadOnly b)) = s'.slots.map (Option.map (Handle.setReadOnly b)) :=
    h.slots_map
  have hpending : s.pending.map (TimedEvent.setReadOnly b) = s'.pending.map (TimedEvent.setReadOnly b) := by
    rw [← List.forall₂_eq_eq_eq, List.forall₂_map_left_iff, List.forall₂_map_right_iff]
    exact h.pending.imp fun _ _ => AlikeEvent.setReadOnly_eq
  obtain ⟨htx, hdrive, hreplies⟩ := h.traces_eq trivial
  calc setReadOnly b s
      = s.withOutside ⟨s.slots.map (Option.map (Handle.setReadOnly b)), s.pending.map (TimedEvent.setReadOnly b),
          s.txTrace, s.diag, s.driveTrace, s.replies⟩ := rfl
    _ = s.withOutside ⟨s'.slots.map (Option.map (Handle.setReadOnly b)), s'.pending.map (TimedEvent.setReadOnly b),
          s'.txTrace, s'.diag, s'.driveTrace, s'.replies⟩ := by
        rw [hslots, hpending, htx, hdrive, hreplies, h.diag_eq trivial]
    _ = setReadOnly b s' := congrArg (setReadOnly b) h.eq_withOutside.symm

/-- Settles O16: a state and the same with the flags rewritten are alike for the view that is blind to the flag. -/
theorem noRuleReadsTheReadOnlyFlag : Obligations.NoRuleReadsTheReadOnlyFlag := by
  intro s b
  exact (setReadOnly_alike b s).step.map_eq fun _ _ => Alike.setReadOnly_eq

/-! ### The two detections of a stalled payload -/

/-- A run of one step is the step. -/
theorem run_one (s : State) : Host.Core.run Sys2Proof.core 1 s = step s := by
  have hstep : Sys2Proof.core.step s = step s := rfl
  refine (Host.Core.run.eq_2 Sys2Proof.core s 0).trans ?_
  rw [hstep]
  cases step s <;> rfl

theorem run_two {s u : State} (h : step s = .next u) : Host.Core.run Sys2Proof.core 2 s = step u := by
  have hfirst : Sys2Proof.core.step s = .next u := h
  refine (Host.Core.run.eq_2 Sys2Proof.core s 1).trans ?_
  rw [hfirst]
  exact run_one u

/-- A state without its diagnostics. -/
def forgetDiag (s : State) : State :=
  { s with diag := [] }

theorem Alike.forgetDiag_eq {s s' : State} (h : Alike (.wholeHandles False True) s s') :
    forgetDiag s = forgetDiag s' := by
  obtain ⟨htx, hdrive, hreplies⟩ := h.traces_eq trivial
  calc forgetDiag s
      = s.withOutside ⟨s.slots, s.pending, s.txTrace, [], s.driveTrace, s.replies⟩ := rfl
    _ = s.withOutside ⟨s'.slots, s'.pending, s'.txTrace, [], s'.driveTrace, s'.replies⟩ := by
        rw [h.slots_eq, h.pending_eq, htx, hdrive, hreplies]
    _ = forgetDiag s' := congrArg forgetDiag h.eq_withOutside.symm

/-- A chunk for a block that is free of a payload and has an empty frame buffer. -/
theorem execPayload_empty {s : State} (hstate : s.pstate = .awaitingCommand) (hfbuf : s.fbuf = []) (bytes : List Byte)
    (gap : Time) : execPayload bytes s = frameDecoder bytes gap (stampConsumed s) := by
  have hempty : (stampConsumed s).fbuf = [] := hfbuf
  have hexec : execPayload bytes s = frameDecoder bytes (s.now - s.tRx) (stampConsumed s) := by
    unfold execPayload
    rw [hstate]
  exact hexec.trans ((frameDecoder_empty hempty bytes _).trans (frameDecoder_empty hempty bytes gap).symm)

/-- The chunk after the abort and the chunk that itself finds the payload stale: they reach the Frame Decoder in states
that differ in the stamp of one diagnostic. -/
theorem execPayload_aborted {u : State} {p : PendingWrite} (bytes : List Byte) (hstate : u.pstate = .awaitingSectorData)
    (hpw : u.pw = some p) (hgap : u.config.tAbort < u.now - u.tRx) (hfbuf : u.fbuf = []) (diag : List DiagRecord) :
    AlikeResult (.wholeHandles False True) (execPayload bytes { abortPayload p u with diag := diag })
      (execPayload bytes u) := by
  have halike : Alike (.wholeHandles False True) (stampConsumed { abortPayload p u with diag := diag })
      (abortPayload p (stampConsumed u)) :=
    .of_outside rfl { AlikeOutside.refl _ u.outside with diag := False.elim }
  have hempty : { abortPayload p u with diag := diag }.fbuf = [] := hfbuf
  rw [execPayload_empty rfl hempty bytes (u.now - u.tRx), execPayload_late hstate hpw hgap]
  exact halike.frameDecoder bytes _

/-- Settles O44: the event aborts the payload, and the chunk then runs as it would on the stale payload, in all but the
diagnostics; a chunk of a length that R130 does not allow is refused in both runs. -/
theorem bothAbortDetectionsAgree : Obligations.BothAbortDetectionsAgree := by
  intro s t t' bytes rest hinv hstate hp hnow ht hdue
  obtain ⟨p, hpw⟩ := Option.ne_none_iff_exists'.1 (hinv.pendingWrite.2 (.inl hstate))
  have hfbuf : s.fbuf = [] := hinv.frameEmpty (by simp [hstate])
  let s₀ : State := { s with pending := ⟨t', .abortTimeout⟩ :: s.pending }
  let diag := s.diag ++ [⟨.timeoutPayload s.pbuf.length p.len, t'⟩]
  let s₁ : State := { s with
    now := t', pbuf := [], pw := none, pstate := .awaitingCommand, diag := diag }
  have habort : step s₀ = .next s₁ :=
    (abortTimeoutDiscardsThePayload s₀ t' s.pending p rfl hnow hstate hpw).1 hdue
  let u := takeEvent ⟨t, .rxChunk bytes⟩ rest s
  let v : State := { abortPayload p u with diag := diag }
  have hlate : step s = runEvent (.rxChunk bytes) u := step_due hp (Nat.le_trans hnow ht)
  have haborted : step s₁ = runEvent (.rxChunk bytes) v := step_due (s := s₁) hp ht
  have hgap : u.config.tAbort < u.now - u.tRx := Nat.lt_of_lt_of_le hdue (Nat.sub_le_sub_right ht _)
  have halike : AlikeResult (.wholeHandles False True) (runEvent (.rxChunk bytes) v) (runEvent (.rxChunk bytes) u) := by
    have hok : chunkOk bytes v = chunkOk bytes u := rfl
    simp only [runEvent, runFetch_received, hok]
    split
    · exact execPayload_aborted (u := u) bytes hstate hpw hgap hfbuf diag
    · exact .refused _
  have hforget := halike.map_eq fun _ _ => Alike.forgetDiag_eq
  rw [← haborted, ← hlate, ← run_two habort] at hforget
  exact hforget

end Sys2Proof.Machine
